-- ==== Sys2Proof/Word.lean ====
section
/-! DEFINITION. The word types of the SAE and nothing else. -/

namespace Sys2Proof

/-- A host word, a register, a byte offset: 32 bits (00_scope.md R7). -/
abbrev Word := BitVec 32

/-- One byte lane of the host port (20_memory.md R67). -/
abbrev Byte := BitVec 8

/-- A sample: 16 bits, read as signed two's complement (00_scope.md R7, `SW` = 16). -/
abbrev Sample := BitVec 16

end Sys2Proof
end

