-- ==== Sys2Proof/Config.lean ====
section
/-! DEFINITION. What a build of the SAE fixes (00_scope.md R7), and the one free value of the spec. -/

namespace Sys2Proof

/-- The OPEN parameters of a build (00_scope.md R7, R44): constants that the host can read
as the registers MAXLEN and DLMAX, and that no step changes. -/
structure Config where
  /-- `MAXLEN`: the capacity of each channel buffer in samples. -/
  maxLen : Nat
  /-- `DLMAX`: the capacity of the echo delay line in samples. -/
  dlMax  : Nat
  deriving DecidableEq, Repr

namespace Config

/-- The constraints of 00_scope.md R7: 1 <= MAXLEN <= 2^28 and 1 <= DLMAX <= MAXLEN. -/
abbrev Legal (c : Config) : Prop :=
  1 ≤ c.maxLen ∧ c.maxLen ≤ 0x10000000 ∧ 1 ≤ c.dlMax ∧ c.dlMax ≤ c.maxLen

/-- `SR`: the sample rate of every count computation (00_scope.md R7, 10_state.md R34). -/
def sampleRate : Nat := 44100

/-- 2^`FRAC` with `FRAC` = 16: what the pattern of 1.0 is (00_scope.md R7, R12). -/
def one : Nat := 0x10000

/-- DESIGN CHOICE (log 1), unsafe: the spec leaves MAXLEN and DLMAX open, and this is the
build that `State.reset` has, the largest that R7 allows. No statement rests on it: each
statement holds for every configuration, or for every legal one. -/
def largest : Config := { maxLen := 0x10000000, dlMax := 0x10000000 }

/-- FREE VALUE (log 5): entry `i` of the delay line before anything is written to it since
reset. "At reset the contents of `DL` are unspecified" (10_state.md R39, 70_reset_and_hazards.md
R242). It has no body, so nothing can be proved of its value. -/
opaque freeDl : Nat → Sample

end Config

end Sys2Proof
end

