-- ==== Sys2Proof/Syntax.lean ====
section
/-! DEFINITION. The command set: channels, the CH field, the five commands of
spec/opcode_table.json, and the named errors of 60_exceptions.md R212. -/

namespace Sys2Proof

/-- One of the two channels: channel 0 is left, channel 1 is right (00_scope.md R13). -/
inductive Chan where
  | left
  | right
  deriving DecidableEq, Repr

/-- The CH field of a command word (30_encoding.md R92). -/
inductive ChanSel where
  /-- CH = 0b00: a command with it is rejected with code 2. -/
  | reserved
  /-- CH = 0b01, suffix `.l`: the channel set {0}. -/
  | left
  /-- CH = 0b10, suffix `.r`: the channel set {1}. -/
  | right
  /-- CH = 0b11, suffix `.lr`: the channel set {0, 1}. -/
  | both
  deriving DecidableEq, Repr

/-- The OP field of a legal command word (30_encoding.md R91). -/
inductive Op where
  | vol
  | fadein
  | fadeout
  | resample
  | echo
  deriving DecidableEq, Repr

/-- A command, one constructor per row of spec/opcode_table.json. Its numeric operands are not
in the word: they are the registers PARAM0 and PARAM1 (30_encoding.md R94). -/
inductive Instr where
  /-- 41_volume.md R140. -/
  | vol (ch : ChanSel)
  /-- 42_fade.md R152. -/
  | fadein (ch : ChanSel)
  /-- 42_fade.md R155. -/
  | fadeout (ch : ChanSel)
  /-- 43_resample.md R170. -/
  | resample (ch : ChanSel)
  /-- 44_echo.md R190. -/
  | echo (ch : ChanSel)
  deriving DecidableEq, Repr

/-- Which transform a command selects. -/
def Instr.op : Instr → Op
  | .vol _ => .vol
  | .fadein _ => .fadein
  | .fadeout _ => .fadeout
  | .resample _ => .resample
  | .echo _ => .echo

/-- Which channels a command selects. -/
def Instr.ch : Instr → ChanSel
  | .vol c => c
  | .fadein c => c
  | .fadeout c => c
  | .resample c => c
  | .echo c => c

/-- The causes of an error (60_exceptions.md R212). Their numbers are `ErrCode.code`. -/
inductive ErrCode where
  /-- RSV != 0, or OP not in 1..5. Every CMD write. -/
  | badCmd
  /-- CH = 0b00. Every CMD write. -/
  | badChannel
  /-- VOL with PARAM0 = 0. -/
  | invalidVolume
  /-- FADEIN or FADEOUT with PARAM0 = 0. -/
  | invalidTime
  /-- RESAMPLE with PARAM0 = 0. -/
  | invalidSpeed
  /-- ECHO with PARAM0 = 0 or PARAM1 = 0. -/
  | invalidEcho
  /-- CH = 0b11 and LEN0 != LEN1. -/
  | lenMismatch
  /-- ECHO with count(PARAM0) > DLMAX. -/
  | delayRange
  /-- RESAMPLE or ECHO with a new length above MAXLEN. -/
  | capacity
  /-- LEN0 or LEN1 written with a value above MAXLEN. -/
  | lenRange
  deriving DecidableEq, Repr

end Sys2Proof
end

