-- ==== Sys2Proof/WellFormed.lean ====
section
/-! DEFINITION. Which commands are legal as syntax. -/

namespace Sys2Proof

/-- A command is well-formed when its CH field is not the reserved 0b00 (30_encoding.md R92, R95).
That is the one check the format leaves: OP and RSV cannot be wrong in an `Instr`. -/
def Instr.wellFormed (i : Instr) : Bool :=
  i.ch != .reserved

end Sys2Proof
end

