-- ==== Sys2Proof/Decode.lean ====
section
/-! DEFINITION. Command words: the decoder (30_encoding.md R90 to R96), and the encoder written
from the same tables. -/

namespace Sys2Proof

/-- OP, bits 3:0 (30_encoding.md R90). -/
def opField (w : Word) : BitVec 4 := w.extractLsb' 0 4

/-- CH, bits 5:4 (30_encoding.md R90). -/
def chField (w : Word) : BitVec 2 := w.extractLsb' 4 2

/-- RSV, bits 31:6 (30_encoding.md R90). -/
def rsvField (w : Word) : BitVec 26 := w.extractLsb' 6 26

/-- The CH values of 30_encoding.md R92. -/
def chanSelOf (c : BitVec 2) : ChanSel :=
  match c.toNat with
  | 1 => .left
  | 2 => .right
  | 3 => .both
  | _ => .reserved

/-- The command a word's OP and CH name, by the rows of spec/opcode_table.json: a row fixes OP and
RSV and leaves CH open, so a word with the reserved CH still names its row's command. A word of no
row (OP not in 1..5, or RSV != 0) names none. This is what the machine reads from a CMD write. -/
def decodeRow (w : Word) : Option Instr :=
  if rsvField w ≠ 0 then none
  else
    match (opField w).toNat with
    | 1 => some (.vol (chanSelOf (chField w)))
    | 2 => some (.fadein (chanSelOf (chField w)))
    | 3 => some (.fadeout (chanSelOf (chField w)))
    | 4 => some (.resample (chanSelOf (chField w)))
    | 5 => some (.echo (chanSelOf (chField w)))
    | _ => none

/-- `decode` of 30_encoding.md R96: total, and a word that is not one of the 15 legal words is
rejected by name. BAD_CMD comes first, whatever CH is. -/
def decode (w : Word) : Except ErrCode Instr :=
  match decodeRow w with
  | none => .error .badCmd
  | some i => if i.wellFormed then .ok i else .error .badChannel

/-- The OP numbers of 30_encoding.md R91. -/
def opCode : Op → BitVec 4
  | .vol => 1#4
  | .fadein => 2#4
  | .fadeout => 3#4
  | .resample => 4#4
  | .echo => 5#4

/-- The CH numbers of 30_encoding.md R92. -/
def chCode : ChanSel → BitVec 2
  | .reserved => 0b00#2
  | .left => 0b01#2
  | .right => 0b10#2
  | .both => 0b11#2

/-- The word of a command: RSV = 0, CH, OP from the most significant bit down (30_encoding.md R90). -/
def encode (i : Instr) : Word :=
  (0#26 ++ chCode i.ch ++ opCode i.op : BitVec 32)

/-- One row of spec/opcode_table.json. -/
structure OpcodeRow where
  mnemonic : String
  mask     : Word
  pattern  : Word
  deriving DecidableEq, Repr

/-- spec/opcode_table.json: mask 0xFFFFFFCF in every row, CH left open (30_encoding.md R99). -/
def opcodeTable : List OpcodeRow :=
  [ ⟨"VOL", 0xFFFFFFCF#32, 0x00000001#32⟩,
    ⟨"FADEIN", 0xFFFFFFCF#32, 0x00000002#32⟩,
    ⟨"FADEOUT", 0xFFFFFFCF#32, 0x00000003#32⟩,
    ⟨"RESAMPLE", 0xFFFFFFCF#32, 0x00000004#32⟩,
    ⟨"ECHO", 0xFFFFFFCF#32, 0x00000005#32⟩ ]

/-- The table row of a transform. -/
def Op.mnemonic : Op → String
  | .vol => "VOL"
  | .fadein => "FADEIN"
  | .fadeout => "FADEOUT"
  | .resample => "RESAMPLE"
  | .echo => "ECHO"

/-- Whether a word has the fixed bits of a row. -/
def OpcodeRow.covers (r : OpcodeRow) (w : Word) : Bool :=
  w &&& r.mask == r.pattern

/-- Byte k of a word, bits 8k+7 to 8k (20_memory.md R67). -/
def byteLane (w : Word) (k : Nat) : Byte := w.extractLsb' (8 * k) 8

/-- The word of four bytes, the first at the lowest address: little-endian (20_memory.md R67). -/
def wordOfLanes (b0 b1 b2 b3 : Byte) : Word := (b3 ++ b2 ++ b1 ++ b0 : BitVec 32)

/-- The first `nbits` bits of a numeral as the word on the port, the bits above them zero. -/
def tableWord (nbits w : Nat) : Word := BitVec.ofNat 32 (w % 2 ^ nbits)

/-- The command the machine reads from the first `nbits` bits of `w`: the word is laid out in its
four byte lanes and read back as the port reads them (20_memory.md R67), then `decodeRow`, which is
what a CMD write uses. The reading keeps a reserved CH, as the opcode table's rows do (log 9). -/
def decodeTableWord (nbits w : Nat) : Option Instr :=
  let x := tableWord nbits w
  decodeRow (wordOfLanes (byteLane x 0) (byteLane x 1) (byteLane x 2) (byteLane x 3))

end Sys2Proof
end

