-- ==== Sys2Proof/Machine/State.lean ====
section
/-! DEFINITION. The state of the SAE (10_state.md R20, R44) as plain data, the two outcomes other than
a next state, and the state after reset (70_reset_and_hazards.md R240). -/

namespace Sys2Proof.Machine

/-- The STATUS register's fields (10_state.md R25, R44). Bits 31:8 hold no state. -/
structure Status where
  busy    : Bool
  done    : Bool
  err     : Bool
  ovr     : Bool
  errcode : BitVec 4
  deriving DecidableEq, Repr

/-- The channel buffers `BUF[0]` and `BUF[1]` (10_state.md R38): the whole of the memory the host
can address beside the registers. Their lengths are LEN0 and LEN1 (R30, R44). -/
structure Memory where
  buf0 : List Sample
  buf1 : List Sample
  deriving DecidableEq, Repr

/-- `BUF[c]`. -/
def Memory.buf (m : Memory) : Chan → List Sample
  | .left => m.buf0
  | .right => m.buf1

/-- The memory is well-formed: each buffer is at most MAXLEN long (10_state.md R38). Two memories
that read alike are equal data, since a buffer is the sequence itself (log 10). -/
def Memory.wf (maxLen : Nat) (m : Memory) : Bool :=
  decide (m.buf0.length ≤ maxLen) && decide (m.buf1.length ≤ maxLen)

/-- The pending-command latch's record (10_state.md R41). -/
structure Pending where
  op    : Op
  chans : ChanSel
  p0    : Word
  p1    : Word
  n     : Nat
  deriving DecidableEq, Repr

/-- The width of a host access: 1, 2 or 4 bytes (20_memory.md R61). -/
inductive AccessSize where
  | one
  | two
  | four
  deriving DecidableEq, Repr

/-- What a host access does, with the word it writes (20_memory.md R61). -/
inductive AccessKind where
  | read
  | write (w : Word)
  deriving DecidableEq, Repr

/-- A host access: byte offset, size, kind, data (20_memory.md R61). -/
structure Access where
  addr : Word
  size : AccessSize
  kind : AccessKind
  deriving DecidableEq, Repr

/-- What the host does next: one access, or one turn of the polling loop `wait`, which reads STATUS
until BUSY is 0 (30_encoding.md R98, 40_datapath.md R121). -/
inductive HostOp where
  | access (a : Access)
  | wait
  deriving DecidableEq, Repr

/-- The response of the host port: a word read, an acknowledged write, or a bus error
(20_memory.md R61, 60_exceptions.md R214). -/
inductive Response where
  | data (w : Word)
  | ack
  | busError
  deriving DecidableEq, Repr

/-- Who moves next: the host, the engine (20_memory.md R72), or the outside world, which drives the
reset input to a level (70_reset_and_hazards.md R240). -/
inductive Turn where
  | host
  | engine
  | pin (level : Bool)
  deriving DecidableEq, Repr

/-- The state of the SAE (10_state.md R44, R39, R40), with the model's own fields for its two
neighbours: what the host will do, who moves next, and the port's last response. -/
structure State where
  /-- MAXLEN and DLMAX (10_state.md R35, R36). No step changes it. -/
  cfg    : Config
  status : Status
  /-- CTRL bit 0 (10_state.md R27). -/
  ie     : Bool
  param0 : Word
  param1 : Word
  mem    : Memory
  count  : Word
  /-- DELTA, a signed word (10_state.md R33). -/
  delta  : Word
  pend   : Option Pending
  /-- `DL`: the entries 0, 1, ... written since reset; the others are unspecified (log 5). -/
  dl     : List Sample
  /-- `WP` (10_state.md R39). -/
  wp     : Nat
  /-- `ACC` (10_state.md R40), 48 bits (log 7). -/
  acc    : BitVec 48
  /-- The level of the input `rst`. -/
  rst    : Bool
  /-- MODEL'S OWN (log 3): the host's operations, the next one first. -/
  host   : List HostOp
  /-- MODEL'S OWN (log 2): who moves, the next one first. -/
  sched  : List Turn
  /-- MODEL'S OWN (log 4): the port's response to the last access. -/
  resp   : Option Response
  deriving DecidableEq, Repr

/-- The reasons a step stops with a fault. "Once a command is accepted it always commits"
(60_exceptions.md R216): each reason is a condition R216 says the acceptance checks rule out. Only
`commit` raises them, only in a state that no run from reset reaches (log 8), and each is SAFE: the
model stops where the spec gives no effect. -/
inductive Fault where
  /-- `commit`: the latch selects no channel, or its n is not the length of a selected buffer. Safe. -/
  | staleLatch
  /-- `commit`: a divisor (F, C or D) would be 0 (40_datapath.md R117). Safe. -/
  | zeroDivisor
  /-- `commit`: the delay does not fit the delay line (44_echo.md R191). Safe. -/
  | delayLineOverflow
  /-- `commit`: the new buffer does not fit MAXLEN (60_exceptions.md R216). Safe. -/
  | bufferOverflow
  deriving DecidableEq, Repr

/-- The reasons a step is refused. None is raised by this model: every command has its meaning. -/
inductive Refusal where
  /-- The dispatcher, for a command without a meaning, by its name. Safe. -/
  | notModelled (mnemonic : String)
  deriving DecidableEq, Repr

/-- One step's outcome. -/
abbrev Result := Host.Outcome State Fault Refusal

namespace State

def setStatus (s : State) (x : Status) : State := { s with status := x }
def setIe (s : State) (x : Bool) : State := { s with ie := x }
def setParam0 (s : State) (x : Word) : State := { s with param0 := x }
def setParam1 (s : State) (x : Word) : State := { s with param1 := x }
def setMem (s : State) (x : Memory) : State := { s with mem := x }
def setCount (s : State) (x : Word) : State := { s with count := x }
def setDelta (s : State) (x : Word) : State := { s with delta := x }
def setPend (s : State) (x : Option Pending) : State := { s with pend := x }
def setDl (s : State) (x : List Sample) : State := { s with dl := x }
def setWp (s : State) (x : Nat) : State := { s with wp := x }
def setAcc (s : State) (x : BitVec 48) : State := { s with acc := x }
def setRst (s : State) (x : Bool) : State := { s with rst := x }
def setHost (s : State) (x : List HostOp) : State := { s with host := x }
def setSched (s : State) (x : List Turn) : State := { s with sched := x }
def setResp (s : State) (x : Option Response) : State := { s with resp := x }

/-- The state after reset of a build (70_reset_and_hazards.md R240), with no host operation, no
scheduled turn and no response outstanding (logs 2, 3, 4). -/
def resetWith (c : Config) : State where
  cfg := c
  status := { busy := false, done := false, err := false, ovr := false, errcode := 0 }
  ie := false
  param0 := 0
  param1 := 0
  mem := { buf0 := [], buf1 := [] }
  count := 0
  delta := 0
  pend := none
  dl := []
  wp := 0
  acc := 0
  rst := false
  host := []
  sched := []
  resp := none

/-- The machine right after reset: `resetWith` of the build named in log 1. -/
def reset : State := resetWith Config.largest

end State

end Sys2Proof.Machine
end

