-- ==== Sys2Proof/Machine/Kernel.lean ====
section
/-! DEFINITION. The shared numeric kernel (40_datapath.md), all of it pure and exact. -/

namespace Sys2Proof.Machine

/-- Quotient rounded toward zero, for b > 0 (00_scope.md R10). -/
def trunc0 (a b : Int) : Int :=
  if 0 ≤ a then a / b else -(-a / b)

/-- Saturation (40_datapath.md R111). -/
def sat16 (v : Int) : Int :=
  if v > 32767 then 32767 else if v < -32768 then -32768 else v

/-- Narrowing of the exact value a/b (40_datapath.md R112): truncated toward zero, then saturated. -/
def narrow (a b : Int) : Int := sat16 (trunc0 a b)

/-- A narrowed value as a stored sample. -/
def sampleOf (v : Int) : Sample := BitVec.ofInt 16 v

/-- The number of samples of a time pattern, halves rounded up (40_datapath.md R113). -/
def sampleCount (p : Word) : Nat :=
  (Config.sampleRate * p.toNat + 0x8000) / Config.one

/-- Gain multiplier (40_datapath.md R114). -/
def mulg (x : Sample) (f : Word) : Sample :=
  sampleOf (narrow (x.toInt * f.toNat) Config.one)

/-- Envelope multiplier at ramp position k of c (40_datapath.md R115): the ramp is squared
(90_conflicts.md C1). -/
def menv (x : Sample) (k c : Nat) : Sample :=
  sampleOf (narrow (x.toInt * k * k) (c * c))

/-- Echo mixer (40_datapath.md R116): the whole sum is formed exactly and narrowed once. -/
def mix (x t : Sample) (v : Word) : Sample :=
  sampleOf (narrow (x.toInt * Config.one + t.toInt * v.toNat) Config.one)

end Sys2Proof.Machine
end

