-- ==== Sys2Proof/Machine/Flags.lean ====
section
/-! DEFINITION. STATUS and irq: every flag computation of the spec (10_state.md R25, R26, R42, R43).
The transforms have no arithmetic flags, and saturation is recorded nowhere (R43). -/

namespace Sys2Proof.Machine

/-- The error numbers (60_exceptions.md R212). -/
def errNumber : ErrCode → BitVec 4
  | .badCmd => 1
  | .badChannel => 2
  | .invalidVolume => 3
  | .invalidTime => 4
  | .invalidSpeed => 5
  | .invalidEcho => 6
  | .lenMismatch => 7
  | .delayRange => 8
  | .capacity => 9
  | .lenRange => 10

/-- STATUS as the host reads it (10_state.md R25): bits 31:8 are zero. -/
def Status.word (x : Status) : Word :=
  (0#24 ++ x.errcode ++ BitVec.ofBool x.ovr ++ BitVec.ofBool x.err ++ BitVec.ofBool x.done
    ++ BitVec.ofBool x.busy : BitVec 32)

/-- A host write of w to STATUS (10_state.md R26): write-1-to-clear of DONE, ERR and OVR; ERRCODE
goes with ERR; every other bit of w is ignored. -/
def Status.clear (x : Status) (w : Word) : Status where
  busy := x.busy
  done := x.done && !w.getLsbD 1
  err := x.err && !w.getLsbD 2
  ovr := x.ovr && !w.getLsbD 3
  errcode := if w.getLsbD 2 then 0 else x.errcode

/-- A dropped write (10_state.md R43). -/
def Status.dropped (x : Status) : Status := { x with ovr := true }

/-- What an issued command clears before its checks (60_exceptions.md R211). OVR stays. -/
def Status.issued (x : Status) : Status := { x with done := false, err := false, errcode := 0 }

/-- `raise`: the one way an error is reported (60_exceptions.md R210). -/
def Status.raise (x : Status) (e : ErrCode) : Status := { x with err := true, errcode := errNumber e }

/-- Acceptance (60_exceptions.md R215). -/
def Status.accepted (x : Status) : Status := { x with busy := true }

/-- Commit (60_exceptions.md R217). -/
def Status.committed (x : Status) : Status := { x with busy := false, done := true }

/-- CTRL as the host reads it (10_state.md R27): bits 31:1 are zero. -/
def ctrlWord (ie : Bool) : Word := (0#31 ++ BitVec.ofBool ie : BitVec 32)

/-- The interrupt output, a level (10_state.md R42, 60_exceptions.md R220). OVR does not raise it. -/
def State.irq (s : State) : Bool := s.ie && (s.status.done || s.status.err)

end Sys2Proof.Machine
end

