-- ==== Sys2Proof/Machine/Operands.lean ====
section
/-! DEFINITION. The operands of a command (30_encoding.md R92, R94): the channels it selects, their
common length, the length it produces, and the check of its parameters. -/

namespace Sys2Proof.Machine

/-- Whether a channel is in the set a CH value names (30_encoding.md R92). -/
def selects : ChanSel → Chan → Bool
  | .reserved, _ => false
  | .left, .left => true
  | .left, .right => false
  | .right, .left => false
  | .right, .right => true
  | .both, _ => true

/-- LENc as a number: the length of `BUF[c]` (10_state.md R30). -/
def Memory.len (m : Memory) (c : Chan) : Nat := (m.buf c).length

/-- The length n of the selected channels (60_exceptions.md R213, R215). With both selected it is
the left one's, which step 4 of the checks makes the right one's too. -/
def selectedLen (m : Memory) : ChanSel → Nat
  | .right => m.len .right
  | _ => m.len .left

/-- The length a transform gives from length n (43_resample.md R171, 44_echo.md R190); the others
keep n. -/
def newLen (op : Op) (p0 : Word) (n : Nat) : Nat :=
  match op with
  | .vol => n
  | .fadein => n
  | .fadeout => n
  | .resample => n * Config.one / p0.toNat
  | .echo => n + sampleCount p0

/-- Step 3 of the acceptance checks (60_exceptions.md R213): "> 0" is "pattern != 0" (00_scope.md
R12). -/
def paramError (op : Op) (p0 p1 : Word) : Option ErrCode :=
  match op with
  | .vol => if p0 = 0#32 then some .invalidVolume else none
  | .fadein => if p0 = 0#32 then some .invalidTime else none
  | .fadeout => if p0 = 0#32 then some .invalidTime else none
  | .resample => if p0 = 0#32 then some .invalidSpeed else none
  | .echo => if p0 = 0#32 ∨ p1 = 0#32 then some .invalidEcho else none

/-- Steps 5 and 6 of the acceptance checks (60_exceptions.md R213): what the result must fit. -/
def roomError (c : Config) (op : Op) (p0 : Word) (n : Nat) : Option ErrCode :=
  match op with
  | .vol => none
  | .fadein => none
  | .fadeout => none
  | .resample => if newLen .resample p0 n > c.maxLen then some .capacity else none
  | .echo =>
    if sampleCount p0 > c.dlMax then some .delayRange
    else if newLen .echo p0 n > c.maxLen then some .capacity
    else none

/-- The acceptance checks from step 2 on (60_exceptions.md R213), in order: the first failure is
the one reported. Step 1 is `decodeRow`. -/
def check (op : Op) (ch : ChanSel) (s : State) : Option ErrCode :=
  if ch = .reserved then some .badChannel
  else
    match paramError op s.param0 s.param1 with
    | some e => some e
    | none =>
      if ch = .both ∧ s.mem.len .left ≠ s.mem.len .right then some .lenMismatch
      else roomError s.cfg op s.param0 (selectedLen s.mem ch)

/-- What acceptance latches (10_state.md R41, 60_exceptions.md R215). -/
def latch (op : Op) (ch : ChanSel) (s : State) : Pending where
  op := op
  chans := ch
  p0 := s.param0
  p1 := s.param1
  n := selectedLen s.mem ch

end Sys2Proof.Machine
end

