-- ==== Sys2Proof/Machine/Ops.lean ====
section
/-! DEFINITION. The named operations over the buffers, the registers, the latch and the internal
datapath. `report` is the shared error operation (60_exceptions.md R210): the SAE has no other
exception, saves nothing in one and returns from none (R221). -/

namespace Sys2Proof.Machine

/-- `BUF[c] <- b`; the other channel is untouched. -/
def Memory.set (m : Memory) (c : Chan) (b : List Sample) : Memory :=
  match c with
  | .left => { m with buf0 := b }
  | .right => { m with buf1 := b }

/-- A LEN write's new buffer (10_state.md R31): truncated, or extended with zero samples. -/
def resize (b : List Sample) (v : Nat) : List Sample :=
  if v ≤ b.length then b.take v else b ++ List.replicate (v - b.length) 0

/-- One sample as a word: sign-extended, and 0 at or beyond the length (20_memory.md R63). -/
def sampleWord (b : List Sample) (i : Nat) : Word :=
  match b[i]? with
  | some x => x.signExtend 32
  | none => 0

/-- One sample write: bits 15:0 of the word; ignored at or beyond the length (20_memory.md R64). -/
def storeSample (b : List Sample) (i : Nat) (w : Word) : List Sample :=
  b.set i (w.setWidth 16)

/-- A write dropped because BUSY = 1: only OVR changes (10_state.md R43). -/
def State.drop (s : State) : State := s.setStatus s.status.dropped

/-- `raise <Error>(code)` (60_exceptions.md R210): only ERR and ERRCODE change. -/
def State.report (s : State) (e : ErrCode) : State := s.setStatus (s.status.raise e)

/-- `accept` (60_exceptions.md R215). -/
def State.accept (s : State) (p : Pending) : State :=
  (s.setStatus s.status.accepted).setPend (some p)

/-- A word of no opcode-table row written to CMD (60_exceptions.md R211, R213 step 1). -/
def rejectWord (s : State) : State :=
  if s.status.busy then s.drop
  else (s.setStatus s.status.issued).report .badCmd

/-- A command written to CMD (60_exceptions.md R211): dropped while busy; else DONE, ERR and ERRCODE
are cleared and the command is checked, then reported or accepted. -/
def issue (op : Op) (ch : ChanSel) (s : State) : State :=
  if s.status.busy then s.drop
  else
    match check op ch s with
    | some e => (s.setStatus s.status.issued).report e
    | none => (s.setStatus s.status.issued).accept (latch op ch s)

/-- What a transform gives for one channel (40_datapath.md R119): the new buffer, and the value for
COUNT. -/
structure Lane where
  out : List Sample
  cnt : Nat
  deriving DecidableEq, Repr

/-- Apply a function to each selected buffer, on its own (40_datapath.md R120). -/
def Memory.mapSelected (m : Memory) (ch : ChanSel) (f : List Sample → List Sample) : Memory where
  buf0 := if selects ch .left then f m.buf0 else m.buf0
  buf1 := if selects ch .right then f m.buf1 else m.buf1

/-- A selected buffer: the left one where both are selected. With equal lengths both give the same
COUNT and DELTA (40_datapath.md R120). -/
def Memory.selected (m : Memory) : ChanSel → List Sample
  | .right => m.buf1
  | _ => m.buf0

/-- The commit of 60_exceptions.md R217 for a transform, all in one step: the selected buffers (and
so their LENs), COUNT, DELTA, BUSY, DONE, PEND. -/
def commitWith (t : List Sample → Lane) (p : Pending) (s : State) : State :=
  let r := t (s.mem.selected p.chans)
  ((((s.setMem (s.mem.mapSelected p.chans fun b => (t b).out)).setCount
    (BitVec.ofNat 32 r.cnt)).setDelta
    (BitVec.ofInt 32 (4 * ((r.out.length : Int) - p.n)))).setStatus s.status.committed).setPend none

/-- The selected buffers in the order the lanes run: left, then right (log 6). -/
def Memory.lanes (m : Memory) (ch : ChanSel) : List (List Sample) :=
  (if selects ch .left then [m.buf0] else []) ++ (if selects ch .right then [m.buf1] else [])

/-- Read entry i of the delay line: an entry nothing has written since reset is a free value
(10_state.md R39, log 5). -/
def dlRead (dl : List Sample) (i : Nat) : Sample := dl.getD i (Config.freeDl i)

/-- Write entry i of the delay line. -/
def dlWrite (dl : List Sample) (i : Nat) (x : Sample) : List Sample :=
  if i < dl.length then dl.set i x
  else dl ++ (List.range (i - dl.length)).map (fun k => Config.freeDl (dl.length + k)) ++ [x]

/-- The offset on the SAE's port of a host address, for a platform base address (20_memory.md R70:
"the host adds SAE_BASE to every offset"), log 14. -/
def portOffset (saeBase addr : Word) : Word := addr - saeBase

end Sys2Proof.Machine
end

