-- ==== Sys2Proof/Machine/Echo.lean ====
section
/-! DEFINITION. ECHO (44_echo.md R190 to R197) and its delay line. -/

namespace Sys2Proof.Machine

/-- `T_ECHO` (44_echo.md R190): D zero samples appended, then every index from D on mixed with the
original sample D places earlier; COUNT is D. The default of the read is never met, since
i - D < n (R194). -/
def echoLane (p0 p1 : Word) (b : List Sample) : Lane :=
  let d := sampleCount p0
  { out := (b ++ List.replicate d 0).mapIdx fun i x =>
      if d ≤ i then mix x (b.getD (i - d) 0) p1 else x
    cnt := d }

/-- The delay line and its one pointer (10_state.md R39, 44_echo.md R192). -/
structure DelayLine where
  dl : List Sample
  wp : Nat
  deriving DecidableEq, Repr

/-- The loop of the reference datapath (44_echo.md R193): k more samples from index i on. The entry
at WP is read before the dry input is written there. -/
def delayLoop (v : Word) (b : List Sample) (d : Nat) : Nat → Nat → DelayLine → List Sample × DelayLine
  | 0, _, l => ([], l)
  | k + 1, i, l =>
    let xin := b.getD i 0
    let y := if d ≤ i then mix xin (dlRead l.dl l.wp) v else xin
    let r := delayLoop v b d k (i + 1) { dl := dlWrite l.dl l.wp xin, wp := (l.wp + 1) % d }
    (y :: r.1, r.2)

/-- The reference datapath for one channel (44_echo.md R193): WP starts at 0, the delay line as it
was left. -/
def echoDatapath (p0 p1 : Word) (b : List Sample) (dl : List Sample) : List Sample × DelayLine :=
  delayLoop p1 b (sampleCount p0) (newLen .echo p0 b.length) 0 { dl := dl, wp := 0 }

/-- The delay line after the lanes have run, one after the other (44_echo.md R193, log 6). -/
def delayLineAfter (p0 p1 : Word) (bs : List (List Sample)) (l : DelayLine) : DelayLine :=
  bs.foldl (fun x b => (echoDatapath p0 p1 b x.dl).2) l

/-- ECHO at its CMD write (44_echo.md R190, 60_exceptions.md R211). -/
def execEcho (ch : ChanSel) (s : State) : Result := .next (issue .echo ch s)

/-- ECHO at its commit (44_echo.md R190, 60_exceptions.md R217). -/
def commitEcho (p : Pending) (s : State) : State :=
  let l := delayLineAfter p.p0 p.p1 (s.mem.lanes p.chans) { dl := s.dl, wp := s.wp }
  ((commitWith (echoLane p.p0 p.p1) p s).setDl l.dl).setWp l.wp

end Sys2Proof.Machine
end

