-- ==== Sys2Proof/Machine/Fade.lean ====
section
/-! DEFINITION. FADEIN and FADEOUT (42_fade.md R150 to R157). -/

namespace Sys2Proof.Machine

/-- `T_FADEIN` (42_fade.md R152): the first min(C, n) samples get the gain (i/C)²; COUNT is C. -/
def fadeinLane (p0 : Word) (b : List Sample) : Lane :=
  let c := sampleCount p0
  { out := b.mapIdx fun i x => if i < c then menv x i c else x
    cnt := c }

/-- `T_FADEOUT` (42_fade.md R154 to R156): from start = max(0, n - C) on, sample i gets the gain
((n - i)/C)²; COUNT is C. Subtraction of naturals is the clamp of R154. -/
def fadeoutLane (p0 : Word) (b : List Sample) : Lane :=
  let c := sampleCount p0
  let n := b.length
  { out := b.mapIdx fun i x => if n - c ≤ i then menv x (n - i) c else x
    cnt := c }

/-- FADEIN at its CMD write (42_fade.md R152, 60_exceptions.md R211). -/
def execFadein (ch : ChanSel) (s : State) : Result := .next (issue .fadein ch s)

/-- FADEOUT at its CMD write (42_fade.md R155, 60_exceptions.md R211). -/
def execFadeout (ch : ChanSel) (s : State) : Result := .next (issue .fadeout ch s)

/-- FADEIN at its commit (42_fade.md R152, 60_exceptions.md R217). -/
def commitFadein (p : Pending) (s : State) : State := commitWith (fadeinLane p.p0) p s

/-- FADEOUT at its commit (42_fade.md R155, 60_exceptions.md R217). -/
def commitFadeout (p : Pending) (s : State) : State := commitWith (fadeoutLane p.p0) p s

end Sys2Proof.Machine
end

