-- ==== Sys2Proof/Machine/Resample.lean ====
section
/-! DEFINITION. RESAMPLE (43_resample.md R170 to R176) and its phase accumulator. -/

namespace Sys2Proof.Machine

/-- The index kernel `idx(j) = floor(j * F / 2^16)` (43_resample.md R172). -/
def resampleIdx (f : Word) (j : Nat) : Nat := j * f.toNat / Config.one

/-- `T_RESAMPLE` (43_resample.md R170): L' = floor(n * 2^16 / F) copies of the nearest-previous
sample; COUNT is L'. The default of the read is never met (R173). -/
def resampleLane (p0 : Word) (b : List Sample) : Lane :=
  let l := newLen .resample p0 b.length
  { out := (List.range l).map fun j => b.getD (resampleIdx p0 j) 0
    cnt := l }

/-- The loop of the reference datapath (43_resample.md R172): k more samples, ACC as given. -/
def phaseLoop (f : Word) (b : List Sample) : Nat → BitVec 48 → List Sample × BitVec 48
  | 0, acc => ([], acc)
  | k + 1, acc =>
    let r := phaseLoop f b k (acc + f.setWidth 48)
    (b.getD (acc.extractLsb' 16 32).toNat 0 :: r.1, r.2)

/-- The reference datapath for one channel (43_resample.md R172): ACC starts at 0. -/
def resampleDatapath (f : Word) (b : List Sample) : List Sample × BitVec 48 :=
  phaseLoop f b (newLen .resample f b.length) 0

/-- ACC after the lanes have run, each from 0 (43_resample.md R172, log 6). -/
def accAfter (f : Word) (bs : List (List Sample)) (acc : BitVec 48) : BitVec 48 :=
  bs.foldl (fun _ b => (resampleDatapath f b).2) acc

/-- RESAMPLE at its CMD write (43_resample.md R170, 60_exceptions.md R211). -/
def execResample (ch : ChanSel) (s : State) : Result := .next (issue .resample ch s)

/-- RESAMPLE at its commit (43_resample.md R170, R176, 60_exceptions.md R217). -/
def commitResample (p : Pending) (s : State) : State :=
  (commitWith (resampleLane p.p0) p s).setAcc (accAfter p.p0 (s.mem.lanes p.chans) s.acc)

end Sys2Proof.Machine
end

