-- ==== Sys2Proof/Machine/Volume.lean ====
section
/-! DEFINITION. VOL (41_volume.md R140). -/

namespace Sys2Proof.Machine

/-- `T_VOL` (41_volume.md R140): every sample through the gain multiplier; COUNT is 0. -/
def volLane (p0 : Word) (b : List Sample) : Lane where
  out := b.map fun x => mulg x p0
  cnt := 0

/-- VOL at its CMD write (41_volume.md R140, 60_exceptions.md R211). -/
def execVol (ch : ChanSel) (s : State) : Result := .next (issue .vol ch s)

/-- VOL at its commit (41_volume.md R140, 60_exceptions.md R217). -/
def commitVol (p : Pending) (s : State) : State := commitWith (volLane p.p0) p s

end Sys2Proof.Machine
end

