-- ==== Sys2Proof/Machine/Engine.lean ====
section
/-! DEFINITION. The engine agent, whose one step is the commit (60_exceptions.md R217). -/

namespace Sys2Proof.Machine

/-- Why a latched command would have no defined result. 60_exceptions.md R216 says that the checks
at acceptance cover every one of these, so no run meets them (log 8). -/
def commitHazard (p : Pending) (s : State) : Option Fault :=
  if p.chans = .reserved ∨ (selects p.chans .left ∧ s.mem.len .left ≠ p.n) ∨
      (selects p.chans .right ∧ s.mem.len .right ≠ p.n) then some .staleLatch
  else if p.op ≠ .vol ∧ p.p0 = 0#32 then some .zeroDivisor
  else
    match roomError s.cfg p.op p.p0 p.n with
    | none => none
    | some .delayRange => some .delayLineOverflow
    | some _ => some .bufferOverflow

/-- The commit of the latched command (60_exceptions.md R217), by its opcode. -/
def applyCommit (p : Pending) (s : State) : State :=
  match p.op with
  | .vol => commitVol p s
  | .fadein => commitFadein p s
  | .fadeout => commitFadeout p s
  | .resample => commitResample p s
  | .echo => commitEcho p s

/-- The commit, or the named stop where the latch has no defined result. -/
def commit (p : Pending) (s : State) : Result :=
  match commitHazard p s with
  | some f => .fault f
  | none => .next (applyCommit p s)

/-- The engine's turn: it commits the pending command. With none, or while the reset input is high,
it does nothing (60_exceptions.md R228, 70_reset_and_hazards.md R241). -/
def engineTurn (s : State) : Result :=
  match s.pend with
  | none => .next s
  | some p => if s.rst then .next s else commit p s

end Sys2Proof.Machine
end

