-- ==== Sys2Proof/Machine/Dispatch.lean ====
section
/-! DEFINITION. One arm per command: what its CMD write does. -/

namespace Sys2Proof.Machine

def exec (i : Instr) (s : State) : Host.Outcome State Fault Refusal :=
  match i with
  | .vol ch => Sys2Proof.Machine.execVol ch s
  | .fadein ch => Sys2Proof.Machine.execFadein ch s
  | .fadeout ch => Sys2Proof.Machine.execFadeout ch s
  | .resample ch => Sys2Proof.Machine.execResample ch s
  | .echo ch => Sys2Proof.Machine.execEcho ch s

end Sys2Proof.Machine
end

