-- ==== Sys2Proof/Machine/Port.lean ====
section
/-! DEFINITION. The host port: the address map, reads, writes, bus errors (20_memory.md, 10_state.md
R23 to R37, 60_exceptions.md R214), and the turns of the host and of the reset input. -/

namespace Sys2Proof.Machine

/-- The registers of 10_state.md R23. -/
inductive Reg where
  | cmd | status | ctrl | param0 | param1 | len (c : Chan) | count | delta | srate | maxlen | dlmax
  deriving DecidableEq, Repr

/-- The register offsets (10_state.md R23). -/
def Reg.offset : Reg → Word
  | .cmd => 0x00
  | .status => 0x04
  | .ctrl => 0x08
  | .param0 => 0x0C
  | .param1 => 0x10
  | .len .left => 0x14
  | .len .right => 0x18
  | .count => 0x1C
  | .delta => 0x20
  | .srate => 0x24
  | .maxlen => 0x28
  | .dlmax => 0x2C

/-- What an offset addresses (20_memory.md R70). -/
inductive Target where
  | reg (r : Reg)
  | sample (c : Chan) (i : Nat)
  | unmapped
  deriving DecidableEq, Repr

/-- The base of a channel's sample window (20_memory.md R62). -/
def windowBase : Chan → Nat
  | .left => 0x40000000
  | .right => 0x80000000

/-- The register of a word number below 0x30 / 4 (10_state.md R23); the rest of the register
region is unmapped (R37). -/
def regAt (word : Nat) : Target :=
  match word with
  | 0 => .reg .cmd
  | 1 => .reg .status
  | 2 => .reg .ctrl
  | 3 => .reg .param0
  | 4 => .reg .param1
  | 5 => .reg (.len .left)
  | 6 => .reg (.len .right)
  | 7 => .reg .count
  | 8 => .reg .delta
  | 9 => .reg .srate
  | 10 => .reg .maxlen
  | 11 => .reg .dlmax
  | _ => .unmapped

/-- The address map of 20_memory.md R70, for an aligned offset. -/
def target (a : Word) : Target :=
  if a.toNat < 0x1000 then regAt (a.toNat / 4)
  else if a.toNat < windowBase .left then .unmapped
  else if a.toNat < windowBase .right then .sample .left ((a.toNat - windowBase .left) / 4)
  else if a.toNat < 0xC0000000 then .sample .right ((a.toNat - windowBase .right) / 4)
  else .unmapped

/-- A register read (10_state.md R24 to R36): no side effect. -/
def readReg (s : State) : Reg → Word
  | .cmd => 0
  | .status => s.status.word
  | .ctrl => ctrlWord s.ie
  | .param0 => s.param0
  | .param1 => s.param1
  | .len c => BitVec.ofNat 32 (s.mem.len c)
  | .count => s.count
  | .delta => s.delta
  | .srate => BitVec.ofNat 32 Config.sampleRate
  | .maxlen => BitVec.ofNat 32 s.cfg.maxLen
  | .dlmax => BitVec.ofNat 32 s.cfg.dlMax

/-- A LEN write (10_state.md R31): the busy drop comes before the range check (60_exceptions.md
R219), and a rejected write leaves DONE as it was. -/
def writeLen (c : Chan) (w : Word) (s : State) : State :=
  if s.status.busy then s.drop
  else if w.toNat > s.cfg.maxLen then s.report .lenRange
  else s.setMem (s.mem.set c (resize (s.mem.buf c) w.toNat))

/-- A sample write within MAXLEN (20_memory.md R64). -/
def writeSample (c : Chan) (i : Nat) (w : Word) (s : State) : State :=
  if s.status.busy then s.drop
  else s.setMem (s.mem.set c (storeSample (s.mem.buf c) i w))

/-- A write to CMD (60_exceptions.md R211): the word's command runs; a word of no row is rejected. -/
def writeCmd (w : Word) (s : State) : Result :=
  match decodeRow w with
  | none => .next (rejectWord s)
  | some i => exec i s

/-- A register write (10_state.md R24 to R36). Writes to the read-only registers are ignored. -/
def writeReg (r : Reg) (w : Word) (s : State) : Result :=
  match r with
  | .cmd => writeCmd w s
  | .status => .next (s.setStatus (s.status.clear w))
  | .ctrl => .next (s.setIe (w.getLsbD 0))
  | .param0 => .next (if s.status.busy then s.drop else s.setParam0 w)
  | .param1 => .next (if s.status.busy then s.drop else s.setParam1 w)
  | .len c => .next (writeLen c w s)
  | .count => .next s
  | .delta => .next s
  | .srate => .next s
  | .maxlen => .next s
  | .dlmax => .next s

/-- The offset's target, where the port accepts the access: the reset input low (70_reset_and_hazards.md
R240), 4 bytes, aligned, mapped, a sample index below MAXLEN. `none` is a bus error (60_exceptions.md
R214), which takes priority over every other effect (R219). -/
def acceptedTarget (s : State) (a : Access) : Option Target :=
  if s.rst ∨ a.size ≠ .four ∨ a.addr.toNat % 4 ≠ 0 then none
  else
    match target a.addr with
    | .unmapped => none
    | .sample c i => if i < s.cfg.maxLen then some (.sample c i) else none
    | .reg r => some (.reg r)

/-- What an accepted read returns (20_memory.md R63). -/
def readTarget (s : State) : Target → Word
  | .reg r => readReg s r
  | .sample c i => sampleWord (s.mem.buf c) i
  | .unmapped => 0

/-- What an accepted write does. -/
def writeTarget (t : Target) (w : Word) (s : State) : Result :=
  match t with
  | .reg r => writeReg r w s
  | .sample c i => .next (writeSample c i w s)
  | .unmapped => .next s

/-- One host access (20_memory.md R61 to R65): it completes, with its response, in one step (R72). -/
def access (a : Access) (s : State) : Result :=
  match acceptedTarget s a with
  | none => .next (s.setResp (some .busError))
  | some t =>
    match a.kind with
    | .read => .next (s.setResp (some (.data (readTarget s t))))
    | .write w => writeTarget t w (s.setResp (some .ack))

/-- The host's polling read of STATUS (30_encoding.md R98). -/
def pollAccess : Access := { addr := Reg.status.offset, size := .four, kind := .read }

/-- Whether a response to the polling read ends the loop: STATUS came back with bit 0 = 0. A bus
error returns no STATUS, and the host goes on polling (log 11). -/
def pollEnds : Response → Bool
  | .data w => !w.getLsbD 0
  | .ack => false
  | .busError => false

/-- The response of the port to a read, which changes nothing (20_memory.md R69). -/
def readResponse (s : State) (a : Access) : Response :=
  match acceptedTarget s a with
  | none => .busError
  | some t => .data (readTarget s t)

/-- One turn of the host: its next access, or one round of `wait`. With nothing to do it is idle. -/
def hostTurn (s : State) : Result :=
  match s.host with
  | [] => .next s
  | .access a :: rest => access a (s.setHost rest)
  | .wait :: rest =>
    let r := readResponse s pollAccess
    .next ((if pollEnds r then s.setHost rest else s).setResp (some r))

/-- The SAE's own state back to its reset values (70_reset_and_hazards.md R240, R241), whatever it
was doing. DESIGN CHOICE (log 12): so it is from the rise of the reset input on; and the host's queue,
the schedule and the last response are not the SAE's and stay. -/
def State.toReset (s : State) (level : Bool) : State :=
  { State.resetWith s.cfg with rst := level, host := s.host, sched := s.sched, resp := s.resp }

/-- The reset input is driven to a level (70_reset_and_hazards.md R240): high resets the SAE, and when
it goes from high to low the state is that after reset. -/
def pinTurn (level : Bool) (s : State) : State :=
  if level || s.rst then s.toReset level else s

/-- Whose turn it is: the schedule's next turn; with none scheduled, a pending command commits first,
which keeps every run fair to the engine (70_reset_and_hazards.md R248, log 2). -/
def nextTurn (s : State) : Turn :=
  match s.sched with
  | t :: _ => t
  | [] => if s.pend.isSome && !s.rst then .engine else .host

/-- One turn of the agent named. -/
def takeTurn (t : Turn) (s : State) : Result :=
  match t with
  | .host => hostTurn s
  | .engine => engineTurn s
  | .pin level => .next (pinTurn level s)

/-- A CMD write of a word, as the host issues it. -/
def cmdAccess (w : Word) : HostOp := .access { addr := Reg.cmd.offset, size := .four, kind := .write w }

/-- The byte of a sample window at a byte address, as a byte-addressed host sees it (20_memory.md
R67): the lane of the word the port would answer with. `none` where the port gives a bus error. -/
def memByte (s : State) (a : Nat) : Option Byte :=
  match target (BitVec.ofNat 32 (a - a % 4)) with
  | .sample c i => if i < s.cfg.maxLen then some (byteLane (sampleWord (s.mem.buf c) i) (a % 4)) else none
  | .reg _ => none
  | .unmapped => none

end Sys2Proof.Machine
end

