-- ==== Sys2Proof/Machine/HostProgram.lean ====
section
/-! DEFINITION. The host notation of 30_encoding.md R98: each form as the host operations it stands
for. It is notation for the host's side; the SAE sees only the accesses. -/

namespace Sys2Proof.Machine

/-- What `wr` and `rd` name: a register, or the sample word `L[i]` / `R[i]`. -/
inductive Place where
  | reg (r : Reg)
  | sample (c : Chan) (i : Nat)
  deriving DecidableEq, Repr

/-- The offset of a place (10_state.md R23, 20_memory.md R62). -/
def Place.offset : Place → Word
  | .reg r => r.offset
  | .sample c i => BitVec.ofNat 32 (windowBase c + 4 * i)

/-- The forms of 30_encoding.md R98, but for `fix`, which is no access. -/
inductive Form where
  | wr (p : Place) (v : Word)
  | rd (p : Place)
  | cmd (i : Instr)
  | wait
  | load (c : Chan) (samples : List Int)
  | clr
  deriving DecidableEq, Repr

/-- `wr`: one aligned 4-byte write. -/
def wrOp (p : Place) (v : Word) : HostOp := .access { addr := p.offset, size := .four, kind := .write v }

/-- `rd`: one aligned 4-byte read. -/
def rdOp (p : Place) : HostOp := .access { addr := p.offset, size := .four, kind := .read }

/-- The expansion of a form (30_encoding.md R98). -/
def Form.ops : Form → List HostOp
  | .wr p v => [wrOp p v]
  | .rd p => [rdOp p]
  | .cmd i => [wrOp (.reg .cmd) (encode i)]
  | .wait => [.wait]
  | .load c xs =>
    wrOp (.reg (.len c)) (BitVec.ofNat 32 xs.length) ::
      xs.mapIdx fun i x => wrOp (.sample c i) ((BitVec.ofInt 16 x).setWidth 32)
  | .clr => [wrOp (.reg .status) 0x0000000E]

/-- A program: its forms in order. -/
def assemble (p : List Form) : List HostOp := p.flatMap Form.ops

/-- `fix(q)` for q = num / den (30_encoding.md R98, log 15): the pattern q * 2^16, and an assembly
error (`none`) unless that is an integer in [1, 2^32). -/
def fix (num den : Nat) : Option Word :=
  if den ≠ 0 ∧ num * Config.one % den = 0 ∧ 1 ≤ num * Config.one / den ∧ num * Config.one / den < 0x100000000
  then some (BitVec.ofNat 32 (num * Config.one / den))
  else none

/-- The state with a program's operations behind those the host has still to do. -/
def State.withProgram (s : State) (p : List Form) : State := s.setHost (s.host ++ assemble p)

end Sys2Proof.Machine
end

