-- ==== Sys2Proof/Machine/Step.lean ====
section
/-! DEFINITION. One step of the whole machine: one turn of one agent (20_memory.md R72). -/

namespace Sys2Proof.Machine

/-- One step: the agent whose turn it is moves, and a scheduled turn is used up. -/
def step (s : State) : Host.Outcome State Fault Refusal :=
  takeTurn (nextTurn s) (s.setSched s.sched.tail)

/-- The state whose very next step is the CMD write of the first `nbits` bits of `w`: the host issues
it next, it is the host's turn, and the reset input is low so that the port accepts it (log 3). -/
def State.withFetchWord (s : State) (nbits w : Nat) : State :=
  { s with
    rst := false
    host := cmdAccess (tableWord nbits w) :: s.host
    sched := .host :: s.sched }

end Sys2Proof.Machine
end

