-- ==== Sys2Proof/Safety.lean ====
section
/-! DEFINITION. What a good state and a safe run are. -/

namespace Sys2Proof.Machine

/-- The legal STATUS values (10_state.md R25): ERRCODE is 0 exactly when ERR is, never above 10, and
BUSY excludes DONE and ERR. -/
abbrev Status.Legal (x : Status) : Prop :=
  (x.err = false → x.errcode = 0) ∧ (x.err = true → 1 ≤ x.errcode.toNat ∧ x.errcode.toNat ≤ 10) ∧
  ¬(x.busy = true ∧ x.done = true) ∧ ¬(x.busy = true ∧ x.err = true)

/-- The latch agrees with BUSY (10_state.md R41), and a latched command is still exactly what the
acceptance checks passed: no write reaches its operands while it is in flight (20_memory.md R75). -/
abbrev State.LatchSound (s : State) : Prop :=
  s.pend.isSome = s.status.busy ∧
  ∀ p ∈ s.pend, check p.op p.chans s = none ∧ p = latch p.op p.chans s

/-- The internal datapath stays inside its storage (10_state.md R39, 43_resample.md R172). -/
abbrev State.DatapathInRange (s : State) : Prop :=
  s.dl.length ≤ s.cfg.dlMax ∧ s.wp < s.cfg.dlMax ∧ s.acc.toNat ≤ 0x100000000000

/-- While the reset input is high the SAE is in its reset state. DESIGN CHOICE (log 12), unsafe for
internal values: 70_reset_and_hazards.md R240 gives that state when the input falls, R241 for a command
cut off, and the model has it from the rise on, where the host can read nothing. -/
abbrev State.HeldInReset (s : State) : Prop :=
  s.rst = true → s = s.toReset true

/-- The invariant of the machine. -/
structure State.Inv (s : State) : Prop where
  cfg : s.cfg.Legal
  mem : s.mem.wf s.cfg.maxLen = true
  status : s.status.Legal
  latch : s.LatchSound
  datapath : s.DatapathInRange
  reset : s.HeldInReset

/-- The machine can take its next step: it neither faults nor refuses. -/
def State.Steps (s : State) : Prop := ∃ t, step s = .next t

/-- What the host can learn of a state agrees in two states: they differ at most in the internal
datapath DL, WP and ACC (10_state.md R39, R40; "never host-visible", R20). -/
def State.SameButDatapath (s t : State) : Prop :=
  t = { s with dl := t.dl, wp := t.wp, acc := t.acc }

/-- The outside world does not raise the reset input in the scheduled turns. -/
def State.NoResetScheduled (s : State) : Prop := ∀ t ∈ s.sched, t ≠ .pin true

end Sys2Proof.Machine
end

