-- ==== Sys2Proof/Certificates/Slice0/Obligations.lean ====
section
/-! DEFINITION. The statements for the provers, from the numbered rules of spec/. They hold for every
configuration (or every legal one), every schedule and every host, and rest on no reset value that the
model chose. -/

namespace Sys2Proof.Claims

open Sys2Proof.Machine

/-- The exact value a/b truncated toward zero and saturated to 16 bits, as a sample (40_datapath.md
R111, R112), in the library's own words. -/
def clampTrunc (a b : Int) : Sample := BitVec.ofInt 16 (max (-32768) (min 32767 (a.tdiv b)))

/-- `count(P)` (40_datapath.md R113). -/
def countOf (p : Word) : Nat := (44100 * p.toNat + 32768) / 65536

/-- An aligned 4-byte read. -/
def rdAt (a : Nat) : Access := { addr := BitVec.ofNat 32 a, size := .four, kind := .read }

/-- An aligned 4-byte write. -/
def wrAt (a : Nat) (w : Word) : Access := { addr := BitVec.ofNat 32 a, size := .four, kind := .write w }

/-- The offset of LENc (10_state.md R23). -/
def lenOffset : Chan → Nat
  | .left => 0x14
  | .right => 0x18

/-- The base of the sample window of c (20_memory.md R62). -/
def base : Chan → Nat
  | .left => 0x40000000
  | .right => 0x80000000

/-- The number of the common length of the channels CH selects (60_exceptions.md R213). -/
def commonLen (s : State) : ChanSel → Nat
  | .right => s.mem.buf1.length
  | _ => s.mem.buf0.length

/-- Both selected channels have one length, where both are selected. -/
def SameLength (ch : ChanSel) (s : State) : Prop := ch = .both → s.mem.buf0.length = s.mem.buf1.length

/-- The STATUS value right after acceptance: BUSY alone, and OVR as it was (60_exceptions.md R211, R215). -/
def acceptedStatus (s : State) : Status :=
  { busy := true, done := false, err := false, ovr := s.status.ovr, errcode := 0 }

/-- The STATUS value right after the commit of a command: DONE alone, and OVR as it was
(60_exceptions.md R217). -/
def doneStatus (s : State) : Status :=
  { busy := false, done := true, err := false, ovr := s.status.ovr, errcode := 0 }

/-- STATUS after a rejection with a code (60_exceptions.md R210, R211). -/
def rejectedStatus (s : State) (code : BitVec 4) : Status :=
  { busy := false, done := false, err := true, ovr := s.status.ovr, errcode := code }

/-- The states between two commands: not busy, the reset input low. -/
def Idle (s : State) : Prop := s.status.busy = false ∧ s.rst = false

/-- A command of transform `op` on the channels `ch` runs in two steps from `s`: its CMD write is
accepted, with the operands latched and nothing else changed but STATUS, and the engine's next turn
commits it. `u` is the state after the commit. The frame is whole: all of `u` but the fields named is
`s`. -/
def RunsTo (i : Instr) (s u : State) : Prop :=
  ∃ t, exec i s = .next t ∧
    t = { s with
      status := acceptedStatus s
      pend := some { op := i.op, chans := i.ch, p0 := s.param0, p1 := s.param1, n := commonLen s i.ch } } ∧
    engineTurn t = .next u ∧
    u = { s with
      status := doneStatus s
      pend := none
      mem := u.mem, count := u.count, delta := u.delta, dl := u.dl, wp := u.wp, acc := u.acc }

/-- The first failing acceptance check for a word written to CMD, by its number, 0 if all pass: the
list of 60_exceptions.md R213, in its order. -/
def firstFailure (w : Word) (s : State) : Nat :=
  let op := w.toNat % 16
  let ch := w.toNat / 16 % 4
  let p0 := s.param0.toNat
  let p1 := s.param1.toNat
  let n0 := s.mem.buf0.length
  let n1 := s.mem.buf1.length
  let n := if ch = 2 then n1 else n0
  if w.toNat / 64 ≠ 0 ∨ op = 0 ∨ 5 < op then 1
  else if ch = 0 then 2
  else if op = 1 ∧ p0 = 0 then 3
  else if (op = 2 ∨ op = 3) ∧ p0 = 0 then 4
  else if op = 4 ∧ p0 = 0 then 5
  else if op = 5 ∧ (p0 = 0 ∨ p1 = 0) then 6
  else if ch = 3 ∧ n0 ≠ n1 then 7
  else if op = 5 ∧ countOf s.param0 > s.cfg.dlMax then 8
  else if op = 4 ∧ n * 65536 / p0 > s.cfg.maxLen then 9
  else if op = 5 ∧ n + countOf s.param0 > s.cfg.maxLen then 9
  else 0

/-- The 15 legal command words (30_encoding.md section 4). -/
def legalWords : List Word :=
  [0x11, 0x21, 0x31, 0x12, 0x22, 0x32, 0x13, 0x23, 0x33, 0x14, 0x24, 0x34, 0x15, 0x25, 0x35]

end Sys2Proof.Claims

open Sys2Proof Sys2Proof.Machine Sys2Proof.Claims

/-! ### Command words -/

/-- The 15 legal words of 30_encoding.md section 4 decode to the commands they stand for. -/
def Obligations.LegalWordsDecodeToTheirCommands : Prop :=
  decode 0x00000011 = .ok (.vol .left) ∧ decode 0x00000021 = .ok (.vol .right) ∧
  decode 0x00000031 = .ok (.vol .both) ∧ decode 0x00000012 = .ok (.fadein .left) ∧
  decode 0x00000022 = .ok (.fadein .right) ∧ decode 0x00000032 = .ok (.fadein .both) ∧
  decode 0x00000013 = .ok (.fadeout .left) ∧ decode 0x00000023 = .ok (.fadeout .right) ∧
  decode 0x00000033 = .ok (.fadeout .both) ∧ decode 0x00000014 = .ok (.resample .left) ∧
  decode 0x00000024 = .ok (.resample .right) ∧ decode 0x00000034 = .ok (.resample .both) ∧
  decode 0x00000015 = .ok (.echo .left) ∧ decode 0x00000025 = .ok (.echo .right) ∧
  decode 0x00000035 = .ok (.echo .both)

/-- 30_encoding.md R96: decoding is total, with the checks in the order shown. -/
def Obligations.DecodeFollowsTheThreeChecks : Prop :=
  ∀ w : Word,
    (w.toNat / 64 ≠ 0 → decode w = .error .badCmd) ∧
    (w.toNat / 64 = 0 → (w.toNat % 16 = 0 ∨ 5 < w.toNat % 16) → decode w = .error .badCmd) ∧
    (w.toNat / 64 = 0 → 1 ≤ w.toNat % 16 → w.toNat % 16 ≤ 5 → w.toNat / 16 % 4 = 0 →
      decode w = .error .badChannel) ∧
    (w.toNat / 64 = 0 → 1 ≤ w.toNat % 16 → w.toNat % 16 ≤ 5 → w.toNat / 16 % 4 ≠ 0 →
      ∃ i, decode w = .ok i ∧ (opCode i.op).toNat = w.toNat % 16 ∧ (chCode i.ch).toNat = w.toNat / 16 % 4)

/-- Decode and encode agree, both ways: a word decodes to a command exactly when the command is
well-formed and the word is its encoding (30_encoding.md R90 to R96). -/
def Obligations.DecodeAndEncodeAgree : Prop :=
  ∀ (w : Word) (i : Instr), decode w = .ok i ↔ (i.wellFormed = true ∧ encode i = w)

/-- 30_encoding.md R95: a word is one of the 15 legal words or it is rejected. -/
def Obligations.EveryOtherWordIsRejected : Prop :=
  ∀ w : Word, w ∈ legalWords ∨ decode w = .error .badCmd ∨ decode w = .error .badChannel

/-- A word of one row of the opcode table is a word of no other row, and the machine reads the row's
command from it; a word of no row names no command. The rows are those of 30_encoding.md R99; that the
machine reads a command from a row's word with CH = 00 too, to reject it with code 2, is the model's
reading (DEDUCED, log 9), not R99's. -/
def Obligations.TableRowsAreReadAlone : Prop :=
  ∀ w : Word,
    (∀ i, decodeRow w = some i → ∀ r ∈ opcodeTable, r.covers w = true ↔ r.mnemonic = i.op.mnemonic) ∧
    (decodeRow w = none ↔ ∀ r ∈ opcodeTable, r.covers w = false)

/-! ### The numeric kernel -/

/-- 40_datapath.md R112: truncation then saturation, equal to saturating the exact value first. -/
def Obligations.NarrowIsTheSameInEitherOrder : Prop :=
  (∀ a b : Int, 0 < b →
    narrow a b = max (-32768) (min 32767 (a.tdiv b)) ∧
    narrow a b = (if a > 32767 * b then 32767 else if a < -32768 * b then -32768 else a.tdiv b)) ∧
  narrow (-1) 2 = 0 ∧ narrow 3 2 = 1 ∧ narrow (-3) 2 = -1 ∧ narrow 65534 1 = 32767 ∧
  narrow (-65536) 1 = -32768

/-- 40_datapath.md R113: the count of a time, and the properties the rule lists. -/
def Obligations.CountOfATime : Prop :=
  (∀ p : Word, sampleCount p = (44100 * p.toNat + 32768) / 65536) ∧
  (∀ p : Word, p ≠ 0#32 → 1 ≤ sampleCount p) ∧
  (∀ p q : Word, p.toNat ≤ q.toNat → sampleCount p ≤ sampleCount q) ∧
  sampleCount 0xFFFFFFFF = 2890137599 ∧ (∀ p : Word, sampleCount p < 2 ^ 32) ∧
  sampleCount 1 = 1 ∧ sampleCount 2 = 1 ∧ sampleCount 3 = 2 ∧ sampleCount 4 = 3 ∧
  sampleCount 5 = 3 ∧ sampleCount 6 = 4 ∧ sampleCount 7 = 5 ∧ sampleCount 65536 = 44100

/-- 40_datapath.md R115: the envelope never saturates, never grows a sample, and is 0 at the ramp's
foot and the identity at its top. -/
def Obligations.EnvelopeNeverSaturates : Prop :=
  ∀ (x : Sample) (k c : Nat), 1 ≤ c → k ≤ c →
    (menv x k c).toInt = (x.toInt * k * k).tdiv (c * c) ∧
    |(menv x k c).toInt| ≤ |x.toInt| ∧
    menv x 0 c = 0 ∧ menv x c c = x

/-- 40_datapath.md R116: the mix is narrowed once, as a whole, and its sum needs 49 bits at most. -/
def Obligations.EchoMixIsNarrowedOnce : Prop :=
  (∀ (x t : Sample) (v : Word),
    mix x t v = clampTrunc (x.toInt * 65536 + t.toInt * v.toNat) 65536 ∧
    |x.toInt * 65536 + t.toInt * v.toNat| < 2 ^ 31 + 2 ^ 47) ∧
  (mix 10 (-1) 0x8000).toInt = 9

/-! ### Registers and flags -/

/-- 10_state.md R25: the places of the STATUS fields; bits 31:8 read as zero. -/
def Obligations.StatusReadLayout : Prop :=
  ∀ s : State, s.rst = false →
    ∃ w, access (rdAt 0x04) s = .next { s with resp := some (.data w) } ∧
      w.toNat = s.status.busy.toNat + 2 * s.status.done.toNat + 4 * s.status.err.toNat +
        8 * s.status.ovr.toNat + 16 * s.status.errcode.toNat

/-- 10_state.md R26: the whole effect of a STATUS write, busy or not. -/
def Obligations.StatusWriteClearsTheBitsWrittenOne : Prop :=
  ∀ (s : State) (w : Word), s.rst = false →
    access (wrAt 0x04 w) s = .next { s with
      status :=
        { busy := s.status.busy
          done := if w.getLsbD 1 then false else s.status.done
          err := if w.getLsbD 2 then false else s.status.err
          ovr := if w.getLsbD 3 then false else s.status.ovr
          errcode := if w.getLsbD 2 then 0 else s.status.errcode }
      resp := some .ack }

/-- 10_state.md R27: CTRL holds bit 0 alone, busy or not, and it is 0 after reset. -/
def Obligations.CtrlHoldsInterruptEnableAlone : Prop :=
  (∀ (s : State) (w : Word), s.rst = false →
    access (wrAt 0x08 w) s = .next { s with ie := w.getLsbD 0, resp := some .ack } ∧
    access (rdAt 0x08) s = .next { s with resp := some (.data (if s.ie then 1 else 0)) }) ∧
  ∀ c : Config, (State.resetWith c).ie = false

/-- 10_state.md R28, R29: PARAM0 and PARAM1 take every pattern while idle, and a write while busy is
dropped with OVR and changes nothing else. -/
def Obligations.ParamWritesStoreOrAreDropped : Prop :=
  ∀ (s : State) (w : Word), s.rst = false →
    (s.status.busy = false →
      access (wrAt 0x0C w) s = .next { s with param0 := w, resp := some .ack } ∧
      access (wrAt 0x10 w) s = .next { s with param1 := w, resp := some .ack }) ∧
    (s.status.busy = true →
      access (wrAt 0x0C w) s =
        .next { s with status := { s.status with ovr := true }, resp := some .ack } ∧
      access (wrAt 0x10 w) s =
        .next { s with status := { s.status with ovr := true }, resp := some .ack }) ∧
    access (rdAt 0x0C) s = .next { s with resp := some (.data s.param0) } ∧
    access (rdAt 0x10) s = .next { s with resp := some (.data s.param1) }

/-- 10_state.md R31: a LEN write, in its order of cases; the buffer of the other channel and all else
stay. -/
def Obligations.LenWriteResizesTheBuffer : Prop :=
  ∀ (s : State) (c : Chan) (v : Word), s.rst = false →
    (s.status.busy = true →
      access (wrAt (lenOffset c) v) s =
        .next { s with status := { s.status with ovr := true }, resp := some .ack }) ∧
    (s.status.busy = false → v.toNat > s.cfg.maxLen →
      access (wrAt (lenOffset c) v) s =
        .next { s with status := { s.status with err := true, errcode := 10 }, resp := some .ack }) ∧
    (s.status.busy = false → v.toNat ≤ s.cfg.maxLen →
      ∃ t, access (wrAt (lenOffset c) v) s = .next t ∧
        t = { s with mem := t.mem, resp := some .ack } ∧
        (v.toNat ≤ (s.mem.buf c).length → t.mem.buf c = (s.mem.buf c).take v.toNat) ∧
        ((s.mem.buf c).length < v.toNat →
          t.mem.buf c = s.mem.buf c ++ List.replicate (v.toNat - (s.mem.buf c).length) 0) ∧
        (v.toNat = (s.mem.buf c).length → t.mem = s.mem) ∧
        (t.mem.buf c).length = v.toNat ∧
        (∀ d, d ≠ c → t.mem.buf d = s.mem.buf d))

/-- 10_state.md R34, R35, R36: the constant registers, which ignore writes, and SRATE is the rate of
every count. -/
def Obligations.ConstantRegistersIgnoreWrites : Prop :=
  ∀ (s : State) (w : Word), s.rst = false →
    access (rdAt 0x24) s = .next { s with resp := some (.data 0x0000AC44) } ∧
    access (rdAt 0x28) s = .next { s with resp := some (.data (BitVec.ofNat 32 s.cfg.maxLen)) } ∧
    access (rdAt 0x2C) s = .next { s with resp := some (.data (BitVec.ofNat 32 s.cfg.dlMax)) } ∧
    access (wrAt 0x24 w) s = .next { s with resp := some .ack } ∧
    access (wrAt 0x28 w) s = .next { s with resp := some .ack } ∧
    access (wrAt 0x2C w) s = .next { s with resp := some .ack } ∧
    (∀ p : Word, sampleCount p = ((0x0000AC44 : Word).toNat * p.toNat + 32768) / 65536)

/-- 10_state.md R24, R30, R32, R33: CMD reads 0, LENc reads the buffer's length, COUNT and DELTA read
their registers and ignore writes. -/
def Obligations.CmdLenCountDeltaReads : Prop :=
  ∀ (s : State) (c : Chan) (w : Word), s.rst = false →
    access (rdAt 0x00) s = .next { s with resp := some (.data 0) } ∧
    access (rdAt (lenOffset c)) s =
      .next { s with resp := some (.data (BitVec.ofNat 32 (s.mem.buf c).length)) } ∧
    access (rdAt 0x1C) s = .next { s with resp := some (.data s.count) } ∧
    access (rdAt 0x20) s = .next { s with resp := some (.data s.delta) } ∧
    access (wrAt 0x1C w) s = .next { s with resp := some .ack } ∧
    access (wrAt 0x20 w) s = .next { s with resp := some .ack }

/-- 10_state.md R42, 60_exceptions.md R220: irq is a level of IE, DONE and ERR in every state, low after
reset, and cleared by W1C of bits 1 and 2 or by the acceptance of a command. -/
def Obligations.InterruptIsALevel : Prop :=
  (∀ s : State, s.irq = true ↔ (s.ie = true ∧ (s.status.done = true ∨ s.status.err = true))) ∧
  (∀ c : Config, (State.resetWith c).irq = false) ∧
  (∀ (s : State) (w : Word), s.rst = false → w.getLsbD 1 = true → w.getLsbD 2 = true →
    ∃ t, access (wrAt 0x04 w) s = .next t ∧ t.irq = false) ∧
  (∀ (s t : State) (i : Instr), s.status.busy = false → exec i s = .next t → t.status.busy = true →
    t.irq = false)

/-! ### The sample windows and the port -/

/-- 20_memory.md R63: the three cases of a sample read, busy or not, with no side effect. -/
def Obligations.SampleReadHasThreeCases : Prop :=
  ∀ (s : State) (c : Chan) (i : Nat), s.rst = false → i < 2 ^ 28 →
    (s.cfg.maxLen ≤ i → access (rdAt (base c + 4 * i)) s = .next { s with resp := some .busError }) ∧
    (i < s.cfg.maxLen → ∀ h : i < (s.mem.buf c).length,
      access (rdAt (base c + 4 * i)) s =
        .next { s with resp := some (.data (((s.mem.buf c)[i]).signExtend 32)) }) ∧
    (i < s.cfg.maxLen → (s.mem.buf c).length ≤ i →
      access (rdAt (base c + 4 * i)) s = .next { s with resp := some (.data 0) })

/-- 20_memory.md R64: the four cases of a sample write. A write that stores changes the one sample
and neither length; every other byte of both windows reads as before. -/
def Obligations.SampleWriteHasFourCases : Prop :=
  ∀ (s : State) (c : Chan) (i : Nat) (w : Word), s.rst = false → i < 2 ^ 28 →
    (s.cfg.maxLen ≤ i → access (wrAt (base c + 4 * i) w) s = .next { s with resp := some .busError }) ∧
    (i < s.cfg.maxLen → s.status.busy = true →
      access (wrAt (base c + 4 * i) w) s =
        .next { s with status := { s.status with ovr := true }, resp := some .ack }) ∧
    (i < s.cfg.maxLen → s.status.busy = false → (s.mem.buf c).length ≤ i →
      access (wrAt (base c + 4 * i) w) s = .next { s with resp := some .ack }) ∧
    (i < s.cfg.maxLen → s.status.busy = false → i < (s.mem.buf c).length →
      ∃ t, access (wrAt (base c + 4 * i) w) s = .next t ∧
        t = { s with mem := t.mem, resp := some .ack } ∧
        (t.mem.buf c)[i]? = some (w.extractLsb' 0 16) ∧
        (∀ d, (t.mem.buf d).length = (s.mem.buf d).length) ∧
        (∀ d j, ¬(d = c ∧ j = i) → (t.mem.buf d)[j]? = (s.mem.buf d)[j]?) ∧
        (∀ a, a < 2 ^ 32 → (a < base c + 4 * i ∨ base c + 4 * i + 4 ≤ a) → memByte t a = memByte s a))

/-- 60_exceptions.md R214 with 20_memory.md R61, R65 and 10_state.md R37: what gets a bus error, which
changes nothing but the response. -/
def Obligations.BusErrorChangesNothing : Prop :=
  ∀ (s : State) (a : Access),
    (a.size ≠ .four ∨ a.addr.toNat % 4 ≠ 0 ∨
      (0x30 ≤ a.addr.toNat ∧ a.addr.toNat < 0x40000000) ∨ 0xC0000000 ≤ a.addr.toNat ∨
      (∃ c, base c ≤ a.addr.toNat ∧ a.addr.toNat < base c + 2 ^ 30 ∧
        s.cfg.maxLen ≤ (a.addr.toNat - base c) / 4)) →
    access a s = .next { s with resp := some .busError }

/-- 20_memory.md R61: every other access is accepted: a read returns a word, a write an
acknowledgement. -/
def Obligations.EveryOtherAccessIsAccepted : Prop :=
  ∀ (s : State) (a : Access), s.rst = false → a.size = .four → a.addr.toNat % 4 = 0 →
    (a.addr.toNat < 0x30 ∨
      ∃ c, base c ≤ a.addr.toNat ∧ a.addr.toNat < base c + 2 ^ 30 ∧
        (a.addr.toNat - base c) / 4 < s.cfg.maxLen) →
    (a.kind = .read → ∃ w, access a s = .next { s with resp := some (.data w) }) ∧
    (∀ w, a.kind = .write w → ∃ t, access a s = .next t ∧ t.resp = some .ack)

/-- 20_memory.md R69: a read has no side effect anywhere. -/
def Obligations.ReadsHaveNoSideEffect : Prop :=
  ∀ (s : State) (a : Access), a.kind = .read →
    ∃ r, access a s = .next { s with resp := some r }

/-! ### A CMD write -/

/-- 60_exceptions.md R211, R213, R210, R215: what a word written to CMD does, for all words and states:
dropped while busy; rejected with the first failing check's code; or accepted, with its operands
latched. Nothing else changes. -/
def Obligations.CmdWriteIsDroppedRejectedOrAccepted : Prop :=
  ∀ (s : State) (w : Word), s.rst = false →
    (s.status.busy = true →
      access (wrAt 0x00 w) s =
        .next { s with status := { s.status with ovr := true }, resp := some .ack }) ∧
    (s.status.busy = false → firstFailure w s ≠ 0 →
      access (wrAt 0x00 w) s = .next { s with
        status := rejectedStatus s (BitVec.ofNat 4 (firstFailure w s)), resp := some .ack }) ∧
    (s.status.busy = false → firstFailure w s = 0 →
      ∃ i, decode w = .ok i ∧
        access (wrAt 0x00 w) s = .next { s with
          status := acceptedStatus s
          pend := some { op := i.op, chans := i.ch, p0 := s.param0, p1 := s.param1, n := commonLen s i.ch }
          resp := some .ack })

/-- 30_encoding.md R93: a word with a reserved bit set is rejected with code 1, whatever OP and CH. -/
def Obligations.ReservedBitsAreBadCmd : Prop :=
  ∀ (s : State) (w : Word) (k : Nat), Idle s → 6 ≤ k → k < 32 → w.getLsbD k = true →
    decode w = .error .badCmd ∧
    access (wrAt 0x00 w) s = .next { s with status := rejectedStatus s 1, resp := some .ack }

/-- A command with the reserved CH is rejected with code 2, whatever its transform and parameters
(30_encoding.md R92, 60_exceptions.md R213 step 2). -/
def Obligations.ReservedChannelIsBadChannel : Prop :=
  ∀ (s : State) (i : Instr), s.status.busy = false → i.ch = .reserved →
    exec i s = .next { s with status := rejectedStatus s 2 }

/-- While busy every command is dropped: OVR is set, and nothing else changes (60_exceptions.md R211,
R218). -/
def Obligations.CommandWhileBusyIsDropped : Prop :=
  ∀ (s : State) (i : Instr), s.status.busy = true →
    exec i s = .next { s with status := { s.status with ovr := true } }

/-- The frame of all five commands' CMD write (60_exceptions.md R210, R215): no register, no length, no
byte of memory, no internal state changes, only STATUS and the latch; OVR is never cleared. -/
def Obligations.CmdWriteFrame : Prop :=
  ∀ (s t : State) (i : Instr), exec i s = .next t →
    t = { s with status := t.status, pend := t.pend } ∧
    (s.status.ovr = true → t.status.ovr = true) ∧
    (s.status.busy = true → t.pend = s.pend) ∧
    (t.status.err = true → t.pend = s.pend) ∧
    ∀ a, memByte t a = memByte s a

/-! ### The five commands, from the CMD write to the commit -/

/-- VOL (41_volume.md R140): accepted whenever F != 0 and the lengths agree, and committed with every
selected sample scaled, truncated toward zero and saturated; COUNT and DELTA 0. -/
def Obligations.VolScalesAndCommits : Prop :=
  ∀ (s : State) (ch : ChanSel), Idle s → ch ≠ .reserved → s.param0 ≠ 0#32 → SameLength ch s →
    ∃ u, RunsTo (.vol ch) s u ∧
      (∀ c, u.mem.buf c =
        if selects ch c then (s.mem.buf c).map fun x => clampTrunc (x.toInt * s.param0.toNat) 65536
        else s.mem.buf c) ∧
      u.count = 0 ∧ u.delta = 0 ∧ u.dl = s.dl ∧ u.wp = s.wp ∧ u.acc = s.acc

/-- FADEIN (42_fade.md R152): the first min(C, n) samples get the gain (i/C)²; COUNT is C, DELTA 0. -/
def Obligations.FadeinRampsUpAndCommits : Prop :=
  ∀ (s : State) (ch : ChanSel), Idle s → ch ≠ .reserved → s.param0 ≠ 0#32 → SameLength ch s →
    ∃ u, RunsTo (.fadein ch) s u ∧
      (∀ c, selects ch c = false → u.mem.buf c = s.mem.buf c) ∧
      (∀ c, selects ch c = true → (u.mem.buf c).length = (s.mem.buf c).length ∧
        ∀ (i : Nat) (x : Sample), (s.mem.buf c)[i]? = some x →
          (i < countOf s.param0 → (u.mem.buf c)[i]? =
            some (clampTrunc (x.toInt * i * i) (countOf s.param0 * countOf s.param0))) ∧
          (countOf s.param0 ≤ i → (u.mem.buf c)[i]? = some x)) ∧
      u.count.toNat = countOf s.param0 ∧ u.delta = 0 ∧ u.dl = s.dl ∧ u.wp = s.wp ∧ u.acc = s.acc

/-- FADEOUT (42_fade.md R154, R155): from max(0, n - C) on, sample i gets the gain ((n - i)/C)². -/
def Obligations.FadeoutRampsDownAndCommits : Prop :=
  ∀ (s : State) (ch : ChanSel), Idle s → ch ≠ .reserved → s.param0 ≠ 0#32 → SameLength ch s →
    ∃ u, RunsTo (.fadeout ch) s u ∧
      (∀ c, selects ch c = false → u.mem.buf c = s.mem.buf c) ∧
      (∀ c, selects ch c = true → (u.mem.buf c).length = (s.mem.buf c).length ∧
        ∀ (i : Nat) (x : Sample), (s.mem.buf c)[i]? = some x →
          (((s.mem.buf c).length : Int) - countOf s.param0 ≤ i → (u.mem.buf c)[i]? =
            some (clampTrunc (x.toInt * ((s.mem.buf c).length - i) * ((s.mem.buf c).length - i))
              (countOf s.param0 * countOf s.param0))) ∧
          ((i : Int) < (s.mem.buf c).length - countOf s.param0 → (u.mem.buf c)[i]? = some x)) ∧
      u.count.toNat = countOf s.param0 ∧ u.delta = 0 ∧ u.dl = s.dl ∧ u.wp = s.wp ∧ u.acc = s.acc

/-- RESAMPLE (43_resample.md R170): floor(n * 2^16 / F) copies of the nearest-previous samples; LEN,
COUNT and DELTA follow. Accepted when F != 0, the lengths agree and the result fits. -/
def Obligations.ResampleSelectsAndCommits : Prop :=
  ∀ (s : State) (ch : ChanSel), Idle s → ch ≠ .reserved → s.param0 ≠ 0#32 → SameLength ch s →
    commonLen s ch * 65536 / s.param0.toNat ≤ s.cfg.maxLen →
    ∃ u, RunsTo (.resample ch) s u ∧
      (∀ c, selects ch c = false → u.mem.buf c = s.mem.buf c) ∧
      (∀ c, selects ch c = true →
        (u.mem.buf c).length = (s.mem.buf c).length * 65536 / s.param0.toNat ∧
        ∀ j, j < (s.mem.buf c).length * 65536 / s.param0.toNat →
          (u.mem.buf c)[j]? = (s.mem.buf c)[j * s.param0.toNat / 65536]?) ∧
      u.count = BitVec.ofNat 32 (commonLen s ch * 65536 / s.param0.toNat) ∧
      u.delta = BitVec.ofInt 32
        (4 * (((commonLen s ch * 65536 / s.param0.toNat : Nat) : Int) - commonLen s ch)) ∧
      u.dl = s.dl ∧ u.wp = s.wp

/-- ECHO (44_echo.md R190): D zero samples appended, then the attenuated original added D places later;
LEN n + D, COUNT D, DELTA 4 * D. Accepted when T, V != 0, the lengths agree, D fits the delay line and
n + D the buffer. -/
def Obligations.EchoAddsTheTailAndCommits : Prop :=
  ∀ (s : State) (ch : ChanSel), Idle s → ch ≠ .reserved → s.param0 ≠ 0#32 → s.param1 ≠ 0#32 → SameLength ch s →
    countOf s.param0 ≤ s.cfg.dlMax → commonLen s ch + countOf s.param0 ≤ s.cfg.maxLen →
    ∃ u, RunsTo (.echo ch) s u ∧
      (∀ c, selects ch c = false → u.mem.buf c = s.mem.buf c) ∧
      (∀ c, selects ch c = true →
        (u.mem.buf c).length = (s.mem.buf c).length + countOf s.param0 ∧
        (∀ i, i < countOf s.param0 → i < (s.mem.buf c).length → (u.mem.buf c)[i]? = (s.mem.buf c)[i]?) ∧
        (∀ i, (s.mem.buf c).length ≤ i → i < countOf s.param0 → (u.mem.buf c)[i]? = some 0) ∧
        (∀ (i : Nat) (t : Sample), (s.mem.buf c)[i]? = some t →
          (u.mem.buf c)[i + countOf s.param0]? = some (clampTrunc
            (((s.mem.buf c).getD (i + countOf s.param0) 0).toInt * 65536 + t.toInt * s.param1.toNat) 65536))) ∧
      u.count.toNat = countOf s.param0 ∧
      u.delta = BitVec.ofInt 32 (4 * (countOf s.param0 : Int)) ∧
      u.acc = s.acc

/-! ### Laws of the transforms -/

/-- 41_volume.md R142: VOL with F = 1.0 leaves every buffer as it was, exactly. -/
def Obligations.VolByOneIsTheIdentity : Prop :=
  ∀ (s : State) (ch : ChanSel), Idle s → ch ≠ .reserved → s.param0 = 0x00010000 → SameLength ch s →
    ∃ u, RunsTo (.vol ch) s u ∧ u.mem = s.mem

/-- 41_volume.md R141: every output of VOL is the exact product truncated and saturated, so it is in
the 16-bit range for every input and every F; at F = 2.0 the two ends of the range stay. -/
def Obligations.VolSaturates : Prop :=
  (∀ (f : Word) (b : List Sample),
    (volLane f b).out.map BitVec.toInt =
      b.map (fun x : Sample => max (-32768) (min 32767 (Int.tdiv (x.toInt * f.toNat) 65536))) ∧
    ∀ y ∈ (volLane f b).out, -32768 ≤ y.toInt ∧ y.toInt ≤ 32767) ∧
  (mulg 0x7FFF 0x00020000).toInt = 32767 ∧ (mulg 0x8000 0x00020000).toInt = -32768

/-- 41_volume.md R143: a whole gain whose products fit multiplies every sample exactly. -/
def Obligations.VolByAWholeGainIsExact : Prop :=
  ∀ (b : List Sample) (k : Nat), 1 ≤ k → k < 65536 →
    (∀ x ∈ b, -32768 ≤ x.toInt * k ∧ x.toInt * k ≤ 32767) →
    (volLane (BitVec.ofNat 32 (k * 65536)) b).out.map BitVec.toInt = b.map fun x : Sample => x.toInt * (k : Int)

/-- 42_fade.md R153: sample 0 always becomes 0, and with C >= n every sample i gets (i/C)². -/
def Obligations.FadeinStartsAtZero : Prop :=
  ∀ (p : Word) (b : List Sample), p ≠ 0#32 →
    (∀ x, b[0]? = some x → (fadeinLane p b).out[0]? = some 0) ∧
    (b.length ≤ countOf p → ∀ (i : Nat) (x : Sample), b[i]? = some x →
      (fadeinLane p b).out[i]? = some (clampTrunc (x.toInt * i * i) (countOf p * countOf p)))

/-- 42_fade.md R156: on the loop range the ramp position n - i is the source's C - x with
x = i - (n - C), whether or not the start was clamped, and it is in (0, min(C, n)]. -/
def Obligations.FadeoutRampIsTheSourceFormula : Prop :=
  ∀ (p : Word) (b : List Sample) (i : Nat) (y : Sample), p ≠ 0#32 → b[i]? = some y →
    max 0 ((b.length : Int) - countOf p) ≤ i →
    let x : Int := i - ((b.length : Int) - countOf p)
    (countOf p : Int) - x = b.length - i ∧ 0 < (countOf p : Int) - x ∧
    (countOf p : Int) - x ≤ min (countOf p : Int) b.length ∧
    (fadeoutLane p b).out[i]? =
      some (clampTrunc (y.toInt * ((countOf p - x) * (countOf p - x))) (countOf p * countOf p))

/-- 42_fade.md R157: FADEOUT reversed is FADEIN's ramp shifted by one, so the two are no mirror
images. -/
def Obligations.FadesAreNotMirrorImages : Prop :=
  (∀ (p : Word) (b : List Sample) (i : Nat) (x : Sample), p ≠ 0#32 → b.length ≤ countOf p →
    b.reverse[i]? = some x →
    (fadeinLane p b.reverse).out[i]? = some (menv x i (countOf p)) ∧
    (fadeoutLane p b).out.reverse[i]? = some (menv x (i + 1) (countOf p))) ∧
  ∃ (p : Word) (b : List Sample), p ≠ 0#32 ∧ b.length ≤ countOf p ∧
    (fadeoutLane p b).out ≠ (fadeinLane p b.reverse).out.reverse

/-- 43_resample.md R173: no read past the end; the index never falls and starts at 0. -/
def Obligations.ResampleNeverReadsPastTheEnd : Prop :=
  ∀ (f : Word) (n : Nat), f ≠ 0#32 →
    (∀ j, j < n * 65536 / f.toNat → resampleIdx f j < n) ∧
    (∀ j k, j ≤ k → resampleIdx f j ≤ resampleIdx f k) ∧ resampleIdx f 0 = 0

/-- 43_resample.md R175: F = 2.0 keeps every second sample, its value unchanged. -/
def Obligations.ResampleByTwoKeepsEvenSamples : Prop :=
  ∀ b : List Sample, (resampleLane 0x00020000 b).out.length = b.length / 2 ∧
    ∀ j, j < b.length / 2 → (resampleLane 0x00020000 b).out[j]? = b[2 * j]?

/-- 43_resample.md R172: the phase accumulator computes the index kernel: after k samples ACC is
k * F exactly, 48 bits never overflow, and the samples it selects are those of R170. -/
def Obligations.PhaseAccumulatorComputesResample : Prop :=
  ∀ (f : Word) (b : List Sample), f ≠ 0#32 → b.length ≤ 2 ^ 28 →
    (∀ k, k ≤ b.length * 65536 / f.toNat →
      (phaseLoop f b k 0).2.toNat = k * f.toNat ∧ k * f.toNat ≤ 2 ^ 44) ∧
    (∀ j, j < b.length * 65536 / f.toNat →
      ((phaseLoop f b j 0).2.extractLsb' 16 32).toNat = j * f.toNat / 65536) ∧
    (resampleDatapath f b).1 = (resampleLane f b).out

/-- 44_echo.md R194: at step i the pointer is i mod D; from step D on the entry read is the input of
D steps earlier; so the delay line computes R190, whatever it held before. -/
def Obligations.DelayLineComputesEcho : Prop :=
  ∀ (p0 p1 : Word) (b dl : List Sample), p0 ≠ 0#32 →
    (∀ i, i ≤ b.length + countOf p0 →
      (delayLoop p1 b (countOf p0) i 0 { dl := dl, wp := 0 }).2.wp = i % countOf p0) ∧
    (∀ i, countOf p0 ≤ i → i < b.length + countOf p0 →
      let l := (delayLoop p1 b (countOf p0) i 0 { dl := dl, wp := 0 }).2
      some (dlRead l.dl l.wp) = b[i - countOf p0]?) ∧
    (echoDatapath p0 p1 b dl).1 = (echoLane p0 p1 b).out

/-- 44_echo.md R195: the four ranges of the echo, which cover every output index once. -/
def Obligations.EchoPiecewise : Prop :=
  ∀ (p0 p1 : Word) (b : List Sample) (i : Nat), p0 ≠ 0#32 →
    (i < min (countOf p0) b.length → (echoLane p0 p1 b).out[i]? = b[i]?) ∧
    (∀ x t, countOf p0 ≤ i → b[i]? = some x → b[i - countOf p0]? = some t →
      (echoLane p0 p1 b).out[i]? = some (mix x t p1)) ∧
    (b.length ≤ i → i < countOf p0 → (echoLane p0 p1 b).out[i]? = some 0) ∧
    (∀ t, max b.length (countOf p0) ≤ i → b[i - countOf p0]? = some t →
      (echoLane p0 p1 b).out[i]? = some (clampTrunc (t.toInt * p1.toNat) 65536) ∧
      mix 0 t p1 = clampTrunc (t.toInt * p1.toNat) 65536) ∧
    (b.length + countOf p0 ≤ i → (echoLane p0 p1 b).out[i]? = none)

/-- 40_datapath.md R120: with both channels selected, each lane is what its single-channel command
gives, and both give the same length, COUNT and DELTA. -/
def Obligations.LanesAreIndependent : Prop :=
  ∀ (s : State) (p : Pending), p.chans = .both →
    s.mem.buf0.length = p.n → s.mem.buf1.length = p.n →
    (applyCommit p s).mem.buf0 = (applyCommit { p with chans := .left } s).mem.buf0 ∧
    (applyCommit p s).mem.buf1 = (applyCommit { p with chans := .right } s).mem.buf1 ∧
    (applyCommit p s).mem.buf0.length = (applyCommit p s).mem.buf1.length ∧
    (∀ ch, ch = .left ∨ ch = .right →
      (applyCommit { p with chans := ch } s).count = (applyCommit p s).count ∧
      (applyCommit { p with chans := ch } s).delta = (applyCommit p s).delta)

/-! ### The machine -/

/-- A step runs the decoded command: when it is the host's turn and its next operation is a CMD write
of a word that decodes to i, the step is exec of i, with the access used up and acknowledged; and so it
is for the word placed by withFetchWord, which is what the decoder reads. -/
def Obligations.StepRunsTheDecodedCommand : Prop :=
  (∀ (s : State) (w : Word) (i : Instr) (rest : List HostOp), nextTurn s = .host → s.rst = false →
    s.host = .access (wrAt 0x00 w) :: rest → decode w = .ok i →
    step s = exec i { s with sched := s.sched.tail, host := rest, resp := some .ack }) ∧
  (∀ (s : State) (w : Nat) (i : Instr), decodeTableWord 32 w = some i →
    step (s.withFetchWord 32 w) = exec i { s with rst := false, resp := some .ack })

/-- Reset (70_reset_and_hazards.md R240, R241): from any state, busy or not, the rising input puts the
whole SAE in the state of R240's table; while it is high every access gets a bus error; when it falls
the state is that after reset. That the reset values are there from the rise on, not from the fall
alone, is the model's DESIGN CHOICE of log 12; the host's queue, the schedule and the response are not
the SAE's (logs 2, 3, 4). -/
def Obligations.ResetFromAnyState : Prop :=
  ∀ s : State,
    (∀ rest, s.sched = .pin true :: rest →
      step s = .next { State.resetWith s.cfg with
        rst := true, host := s.host, sched := rest, resp := s.resp }) ∧
    (∀ rest, s.rst = true → s.sched = .pin false :: rest →
      step s = .next { State.resetWith s.cfg with
        rst := false, host := s.host, sched := rest, resp := s.resp }) ∧
    (∀ a, s.rst = true → access a s = .next { s with resp := some .busError }) ∧
    (s.rst = true → engineTurn s = .next s) ∧
    (∀ c, let r := State.resetWith c
      r.status.word = 0 ∧ ctrlWord r.ie = 0 ∧ r.param0 = 0 ∧ r.param1 = 0 ∧ r.mem.buf0 = [] ∧
      r.mem.buf1 = [] ∧ r.count = 0 ∧ r.delta = 0 ∧ r.pend = none ∧ r.wp = 0 ∧ r.acc = 0 ∧
      r.irq = false ∧ r.cfg = c)

/-- The invariant holds right after reset of every legal build. -/
def Obligations.InvariantHoldsAtReset : Prop :=
  ∀ c : Config, c.Legal → (State.resetWith c).Inv

/-- Every step, of any agent, in any schedule, keeps the invariant: legal STATUS values (10_state.md
R25), buffers within MAXLEN (R38), PEND and BUSY together with operands that still pass the acceptance
checks (R41, 20_memory.md R75), the datapath within its storage (R39, R40). The last conjunct, that all
the SAE's state is the reset state for as long as the reset input is high, is the model's DESIGN CHOICE
of log 12: the spec gives that state when the input falls. -/
def Obligations.InvariantKeptByEveryStep : Prop :=
  ∀ s t : State, s.Inv → step s = .next t → t.Inv

/-- 60_exceptions.md R216: execution cannot fail. No step from a state of the invariant faults or is
refused. -/
def Obligations.NoStepFails : Prop :=
  ∀ s : State, s.Inv → s.Steps

/-- 60_exceptions.md R216, R217: a pending command commits whenever the engine has its turn. -/
def Obligations.APendingCommandAlwaysCommits : Prop :=
  ∀ (s : State) (p : Pending), s.Inv → s.pend = some p → nextTurn s = .engine →
    ∃ t, step s = .next t ∧ t.pend = none ∧
      t.status = { busy := false, done := true, err := false, ovr := s.status.ovr, errcode := 0 } ∧
      (∀ c, selects p.chans c = false → t.mem.buf c = s.mem.buf c) ∧
      (∀ c, selects p.chans c = true → (t.mem.buf c).length = newLen p.op p.p0 p.n) ∧
      t = { s with
        status := t.status, pend := none, mem := t.mem, count := t.count, delta := t.delta
        dl := t.dl, wp := t.wp, acc := t.acc, sched := s.sched.tail }

/-- 20_memory.md R66, R75 and 70_reset_and_hazards.md R241: while a command is in flight nothing the
host can read of it changes and its operands stay, until its commit or a reset, the only two ends. -/
def Obligations.InFlightOnlyCommitOrResetEnds : Prop :=
  ∀ (s t : State) (p : Pending), s.Inv → s.pend = some p → step s = .next t →
    (t.pend = some p ∧ t.status.busy = true ∧ t.mem = s.mem ∧ t.count = s.count ∧ t.delta = s.delta ∧
      t.param0 = s.param0 ∧ t.param1 = s.param1 ∧ (∀ a, memByte t a = memByte s a)) ∨
    (nextTurn s = .engine ∧ t.pend = none ∧ t.status.busy = false ∧ t.status.done = true) ∨
    (nextTurn s = .pin true ∧ t.pend = none ∧ t.status.busy = false ∧ t.mem.buf0 = [] ∧ t.mem.buf1 = [])

/-- 10_state.md R21, R32, R33: COUNT and DELTA change only at a commit or a reset. -/
def Obligations.OnlyCommitsWriteCountAndDelta : Prop :=
  ∀ s t : State, step s = .next t → (t.count ≠ s.count ∨ t.delta ≠ s.delta) →
    (nextTurn s = .engine ∧ ∃ p, s.pend = some p) ∨ (∃ level, nextTurn s = .pin level)

/-- 10_state.md R25, R43: OVR, once set, stays until a STATUS write with bit 3 set, or a reset. -/
def Obligations.OvrIsSticky : Prop :=
  ∀ s t : State, step s = .next t → s.status.ovr = true → t.status.ovr = false →
    (∃ level, nextTurn s = .pin level) ∨
    (nextTurn s = .host ∧ ∃ w rest, s.host = .access (wrAt 0x04 w) :: rest ∧ w.getLsbD 3 = true)

/-- 10_state.md R33: DELTA read as signed is four times the change of length, at most 2^30 in size. -/
def Obligations.DeltaIsTheSignedByteDelta : Prop :=
  ∀ (s t : State) (p : Pending) (c : Chan), s.Inv → s.pend = some p → engineTurn s = .next t →
    selects p.chans c = true → s.rst = false →
    t.delta.toInt = 4 * (((t.mem.buf c).length : Int) - (s.mem.buf c).length) ∧
    |t.delta.toInt| ≤ 2 ^ 30

/-- 10_state.md R39, R40, R20, 70_reset_and_hazards.md R242: the delay line, its pointer and the phase
accumulator are unobservable: two states that differ in them alone take steps that differ in them
alone, and stop alike. -/
def Obligations.DatapathIsUnobservable : Prop :=
  ∀ s t : State, s.SameButDatapath t →
    (∀ s', step s = .next s' → ∃ t', step t = .next t' ∧ s'.SameButDatapath t') ∧
    (∀ f, step s = .fault f → step t = .fault f) ∧
    (∀ r, step s = .refused r → step t = .refused r)

/-- 60_exceptions.md R219, 20_memory.md R72: both orders of a commit and a PARAM0 write are runs of the
machine, and they differ as 95_test_vectors.md P5 says: stored after the commit, dropped with OVR
before it. -/
def Obligations.BothOrdersOfCommitAndWrite : Prop :=
  ∀ (s : State) (p : Pending) (v : Word), s.Inv → s.pend = some p → s.rst = false →
    s.host = [.access (wrAt 0x0C v)] →
    ∃ a b, core.run 2 { s with sched := [.engine, .host] } = .next a ∧
      core.run 2 { s with sched := [.host, .engine] } = .next b ∧
      a.param0 = v ∧ a.status.ovr = s.status.ovr ∧ b.param0 = s.param0 ∧ b.status.ovr = true ∧
      a.mem = b.mem ∧ a.count = b.count ∧ a.delta = b.delta ∧ a.status.done = true ∧ b.status.done = true

/-- 70_reset_and_hazards.md R248: every host wait loop ends, in any schedule without a reset, once the
turns scheduled are used up; after it BUSY is 0. The fairness is the model's rule for an empty schedule
(log 2). -/
def Obligations.EveryWaitLoopEnds : Prop :=
  ∀ (s : State) (rest : List HostOp), s.Inv → s.rst = false → s.NoResetScheduled →
    s.host = .wait :: rest →
    ∃ k t, k ≤ s.sched.length + 2 ∧ core.run k s = .next t ∧ t.host = rest ∧ t.status.busy = false ∧
      ∃ w, t.resp = some (.data w) ∧ w.getLsbD 0 = false

/-- 30_encoding.md R98 `load`, 70_reset_and_hazards.md R243 step 4: writing LENc and then the samples
puts the samples, at 16 bits, in the buffer of c and changes no other buffer. -/
def Obligations.LoadStoresTheClip : Prop :=
  ∀ (s : State) (c : Chan) (xs : List Int), s.Inv → Idle s → s.sched = [] → s.host = [] →
    xs.length ≤ s.cfg.maxLen →
    ∃ t, core.run (xs.length + 1) (s.withProgram [.load c xs]) = .next t ∧
      t.mem.buf c = xs.map (BitVec.ofInt 16) ∧ (∀ d, d ≠ c → t.mem.buf d = s.mem.buf d) ∧
      t = { s with mem := t.mem, resp := some .ack }

/-- 70_reset_and_hazards.md R246: a LEN write that shrinks the buffer and one that grows it again bring
back zeros, not the old samples. -/
def Obligations.ShrinkThenGrowBringsZeros : Prop :=
  ∀ (s : State) (c : Chan) (v w : Word), Idle s → v.toNat ≤ (s.mem.buf c).length → v.toNat ≤ w.toNat →
    w.toNat ≤ s.cfg.maxLen →
    ∃ t u, access (wrAt (lenOffset c) v) s = .next t ∧ access (wrAt (lenOffset c) w) t = .next u ∧
      u.mem.buf c = (s.mem.buf c).take v.toNat ++ List.replicate (w.toNat - v.toNat) 0
end

