-- ==== Sys2Proof/Laws/Decode.lean ====
section
/-! SUPPORT. The fields of a command word as numbers. -/

namespace Sys2Proof

@[simp] theorem opField_toNat (w : Word) : (opField w).toNat = w.toNat % 16 := by
  simp [opField]

@[simp] theorem chField_toNat (w : Word) : (chField w).toNat = w.toNat / 16 % 4 := by
  simp [chField, Nat.shiftRight_eq_div_pow]

@[simp] theorem rsvField_toNat (w : Word) : (rsvField w).toNat = w.toNat / 64 := by
  have := w.isLt
  simp [rsvField, Nat.shiftRight_eq_div_pow]; omega

theorem rsvField_eq_zero_iff (w : Word) : rsvField w = 0 ↔ w.toNat / 64 = 0 := by
  rw [← rsvField_toNat, ← BitVec.toNat_inj]; rfl

/-- Concatenation as arithmetic: {a, b} has a in the more significant bits (00_scope.md R9). -/
theorem append_toNat {m n : Nat} (x : BitVec m) (y : BitVec n) :
    (x ++ y).toNat = x.toNat * 2 ^ n + y.toNat := by
  rw [BitVec.toNat_append, ← Nat.shiftLeft_add_eq_or_of_lt y.isLt, Nat.shiftLeft_eq]

/-- A word is its byte lanes, the first at the lowest address (20_memory.md R67). -/
theorem wordOfLanes_byteLanes (w : Word) :
    wordOfLanes (byteLane w 0) (byteLane w 1) (byteLane w 2) (byteLane w 3) = w := by
  have lt := w.isLt
  have h2 := append_toNat (w.extractLsb' 24 8) (w.extractLsb' 16 8)
  have h3 := append_toNat (w.extractLsb' 24 8 ++ w.extractLsb' 16 8) (w.extractLsb' 8 8)
  have h4 := append_toNat (w.extractLsb' 24 8 ++ w.extractLsb' 16 8 ++ w.extractLsb' 8 8) (w.extractLsb' 0 8)
  apply BitVec.eq_of_toNat_eq
  refine h4.trans ?_
  rw [h3, h2]
  simp only [BitVec.extractLsb'_toNat, Nat.shiftRight_eq_div_pow]
  omega

/-- What the machine reads from a numeral is its word's command. -/
theorem decodeTableWord_eq (w : Nat) : decodeTableWord 32 w = decodeRow (BitVec.ofNat 32 w) := by
  simp only [decodeTableWord]
  rw [wordOfLanes_byteLanes, tableWord]
  congr 1
  apply BitVec.eq_of_toNat_eq
  simp

theorem encode_toNat (i : Instr) : (encode i).toNat = (opCode i.op).toNat + 16 * (chCode i.ch).toNat := by
  cases i <;> rename_i c <;> cases c <;> rfl

end Sys2Proof
end

