-- ==== Sys2Proof/Laws/Flags.lean ====
section
/-! SUPPORT. The fields of STATUS after each of its updates. -/

namespace Sys2Proof.Machine.Status

variable (x : Status) (w : Word) (e : ErrCode)

@[simp] theorem clear_busy : (x.clear w).busy = x.busy := rfl
@[simp] theorem clear_done : (x.clear w).done = (x.done && !w.getLsbD 1) := rfl
@[simp] theorem clear_err : (x.clear w).err = (x.err && !w.getLsbD 2) := rfl
@[simp] theorem clear_ovr : (x.clear w).ovr = (x.ovr && !w.getLsbD 3) := rfl
@[simp] theorem clear_errcode : (x.clear w).errcode = if w.getLsbD 2 then 0 else x.errcode := rfl

@[simp] theorem dropped_busy : x.dropped.busy = x.busy := rfl
@[simp] theorem dropped_done : x.dropped.done = x.done := rfl
@[simp] theorem dropped_err : x.dropped.err = x.err := rfl
@[simp] theorem dropped_ovr : x.dropped.ovr = true := rfl
@[simp] theorem dropped_errcode : x.dropped.errcode = x.errcode := rfl

@[simp] theorem issued_busy : x.issued.busy = x.busy := rfl
@[simp] theorem issued_done : x.issued.done = false := rfl
@[simp] theorem issued_err : x.issued.err = false := rfl
@[simp] theorem issued_ovr : x.issued.ovr = x.ovr := rfl
@[simp] theorem issued_errcode : x.issued.errcode = 0 := rfl

@[simp] theorem raise_busy : (x.raise e).busy = x.busy := rfl
@[simp] theorem raise_done : (x.raise e).done = x.done := rfl
@[simp] theorem raise_err : (x.raise e).err = true := rfl
@[simp] theorem raise_ovr : (x.raise e).ovr = x.ovr := rfl
@[simp] theorem raise_errcode : (x.raise e).errcode = errNumber e := rfl

@[simp] theorem accepted_busy : x.accepted.busy = true := rfl
@[simp] theorem accepted_done : x.accepted.done = x.done := rfl
@[simp] theorem accepted_err : x.accepted.err = x.err := rfl
@[simp] theorem accepted_ovr : x.accepted.ovr = x.ovr := rfl
@[simp] theorem accepted_errcode : x.accepted.errcode = x.errcode := rfl

@[simp] theorem committed_busy : x.committed.busy = false := rfl
@[simp] theorem committed_done : x.committed.done = true := rfl
@[simp] theorem committed_err : x.committed.err = x.err := rfl
@[simp] theorem committed_ovr : x.committed.ovr = x.ovr := rfl
@[simp] theorem committed_errcode : x.committed.errcode = x.errcode := rfl

/-- An error number is 1 to 10 (60_exceptions.md R212). -/
theorem errNumber_range : 1 ≤ (errNumber e).toNat ∧ (errNumber e).toNat ≤ 10 := by
  cases e <;> decide

/-- The places of the fields of STATUS (10_state.md R25). -/
theorem word_toNat : x.word.toNat =
    x.busy.toNat + 2 * x.done.toNat + 4 * x.err.toNat + 8 * x.ovr.toNat + 16 * x.errcode.toNat := by
  have h1 := append_toNat 0#24 x.errcode
  have h2 := append_toNat (0#24 ++ x.errcode) (BitVec.ofBool x.ovr)
  have h3 := append_toNat (0#24 ++ x.errcode ++ BitVec.ofBool x.ovr) (BitVec.ofBool x.err)
  have h4 := append_toNat (0#24 ++ x.errcode ++ BitVec.ofBool x.ovr ++ BitVec.ofBool x.err) (BitVec.ofBool x.done)
  have h5 := append_toNat
    (0#24 ++ x.errcode ++ BitVec.ofBool x.ovr ++ BitVec.ofBool x.err ++ BitVec.ofBool x.done) (BitVec.ofBool x.busy)
  refine h5.trans ?_
  rw [h4, h3, h2, h1]
  simp only [BitVec.toNat_ofBool, BitVec.toNat_ofNat]
  omega

/-- Bit 0 of STATUS as read is BUSY (10_state.md R25). -/
@[simp] theorem word_bit0 : x.word.getLsbD 0 = x.busy := by
  rw [← BitVec.testBit_toNat, word_toNat, Nat.testBit_zero]
  cases x.busy <;> simp <;> omega

/-- CTRL as read is IE in bit 0 and zero above (10_state.md R27). -/
theorem ctrlWord_eq (ie : Bool) : ctrlWord ie = if ie then 1 else 0 := by
  cases ie <;> rfl

end Sys2Proof.Machine.Status
end

