-- ==== Sys2Proof/Laws/Kernel.lean ====
section
/-! SUPPORT. The numeric kernel in the library's words, and its bounds. -/

namespace Sys2Proof.Machine

theorem trunc0_eq_tdiv (a b : Int) (_hb : 0 < b) : trunc0 a b = a.tdiv b := by
  unfold trunc0
  split
  · exact (Int.tdiv_eq_ediv_of_nonneg ‹_›).symm
  · have h : a.tdiv b = -((-a).tdiv b) := by rw [Int.neg_tdiv, neg_neg]
    rw [h, Int.tdiv_eq_ediv_of_nonneg (by omega)]

theorem sat16_eq_clamp (v : Int) : sat16 v = max (-32768) (min 32767 v) := by
  unfold sat16; split <;> [skip; split] <;> omega

theorem sat16_range (v : Int) : -32768 ≤ sat16 v ∧ sat16 v ≤ 32767 := by
  rw [sat16_eq_clamp]; omega

theorem sat16_of_range {v : Int} (h : -32768 ≤ v) (h' : v ≤ 32767) : sat16 v = v := by
  rw [sat16_eq_clamp]; omega

theorem narrow_eq (a b : Int) (hb : 0 < b) : narrow a b = max (-32768) (min 32767 (a.tdiv b)) := by
  rw [narrow, trunc0_eq_tdiv a b hb, sat16_eq_clamp]

theorem narrow_range (a b : Int) : -32768 ≤ narrow a b ∧ narrow a b ≤ 32767 := sat16_range _

/-- A sample is in the signed 16-bit range (10_state.md R38). -/
theorem sample_range (x : Sample) : -32768 ≤ x.toInt ∧ x.toInt ≤ 32767 := by
  have h1 := BitVec.le_toInt x
  have h2 := BitVec.toInt_lt (x := x)
  norm_num at h1 h2; omega

theorem toInt_sampleOf {v : Int} (h : -32768 ≤ v) (h' : v ≤ 32767) : (sampleOf v).toInt = v := by
  rw [sampleOf, BitVec.toInt_ofInt, Int.bmod_def]; omega

@[simp] theorem sampleOf_toInt (x : Sample) : sampleOf x.toInt = x := BitVec.ofInt_toInt

theorem one_eq : Config.one = 65536 := rfl

theorem sampleCount_eq (p : Word) : sampleCount p = (44100 * p.toNat + 32768) / 65536 := rfl

/-- A valid time, P != 0, never gives a count of 0 (40_datapath.md R113). -/
theorem sampleCount_pos {p : Word} (h : p ≠ 0#32) : 0 < sampleCount p := by
  have : p.toNat ≠ 0 := fun h' => h (BitVec.eq_of_toNat_eq (by simpa using h'))
  rw [sampleCount_eq]; omega

/-- A count fits COUNT (40_datapath.md R113). -/
theorem sampleCount_lt (p : Word) : sampleCount p < 2 ^ 32 := by
  have := p.isLt
  rw [sampleCount_eq]; omega

theorem mulg_eq (x : Sample) (f : Word) :
    mulg x f = sampleOf (max (-32768) (min 32767 ((x.toInt * f.toNat).tdiv 65536))) := by
  rw [mulg, one_eq, Nat.cast_ofNat, narrow_eq _ _ (by norm_num)]

theorem menv_eq (x : Sample) (k : Nat) {c : Nat} (hc : 0 < c) :
    menv x k c = sampleOf (max (-32768) (min 32767 ((x.toInt * k * k).tdiv (c * c)))) := by
  rw [menv, narrow_eq _ _ (by positivity)]

theorem mix_eq (x t : Sample) (v : Word) :
    mix x t v =
      sampleOf (max (-32768) (min 32767 ((x.toInt * 65536 + t.toInt * v.toNat).tdiv 65536))) := by
  rw [mix, one_eq, Nat.cast_ofNat, narrow_eq _ _ (by norm_num)]

/-- The gain 1.0 is the identity, exactly (40_datapath.md R114). -/
theorem mulg_one (x : Sample) : mulg x 0x00010000 = x := by
  have h := sample_range x
  have e : (x.toInt * ((0x00010000 : Word).toNat : Int)).tdiv 65536 = x.toInt :=
    Int.mul_tdiv_cancel _ (by decide)
  rw [mulg_eq, e, show max (-32768) (min 32767 x.toInt) = x.toInt by omega, sampleOf_toInt]

end Sys2Proof.Machine
end

