-- ==== Sys2Proof/Laws/State.lean ====
section
/-! SUPPORT. One lemma per field per update of State, true by rfl, so that no proof unfolds a record
update; and the fields of the state after reset. -/

namespace Sys2Proof.Machine.State

variable (s : State)

@[simp] theorem setStatus_cfg (x : Status) : (s.setStatus x).cfg = s.cfg := rfl
@[simp] theorem setStatus_status (x : Status) : (s.setStatus x).status = x := rfl
@[simp] theorem setStatus_ie (x : Status) : (s.setStatus x).ie = s.ie := rfl
@[simp] theorem setStatus_param0 (x : Status) : (s.setStatus x).param0 = s.param0 := rfl
@[simp] theorem setStatus_param1 (x : Status) : (s.setStatus x).param1 = s.param1 := rfl
@[simp] theorem setStatus_mem (x : Status) : (s.setStatus x).mem = s.mem := rfl
@[simp] theorem setStatus_count (x : Status) : (s.setStatus x).count = s.count := rfl
@[simp] theorem setStatus_delta (x : Status) : (s.setStatus x).delta = s.delta := rfl
@[simp] theorem setStatus_pend (x : Status) : (s.setStatus x).pend = s.pend := rfl
@[simp] theorem setStatus_dl (x : Status) : (s.setStatus x).dl = s.dl := rfl
@[simp] theorem setStatus_wp (x : Status) : (s.setStatus x).wp = s.wp := rfl
@[simp] theorem setStatus_acc (x : Status) : (s.setStatus x).acc = s.acc := rfl
@[simp] theorem setStatus_rst (x : Status) : (s.setStatus x).rst = s.rst := rfl
@[simp] theorem setStatus_host (x : Status) : (s.setStatus x).host = s.host := rfl
@[simp] theorem setStatus_sched (x : Status) : (s.setStatus x).sched = s.sched := rfl
@[simp] theorem setStatus_resp (x : Status) : (s.setStatus x).resp = s.resp := rfl

@[simp] theorem setIe_cfg (x : Bool) : (s.setIe x).cfg = s.cfg := rfl
@[simp] theorem setIe_status (x : Bool) : (s.setIe x).status = s.status := rfl
@[simp] theorem setIe_ie (x : Bool) : (s.setIe x).ie = x := rfl
@[simp] theorem setIe_param0 (x : Bool) : (s.setIe x).param0 = s.param0 := rfl
@[simp] theorem setIe_param1 (x : Bool) : (s.setIe x).param1 = s.param1 := rfl
@[simp] theorem setIe_mem (x : Bool) : (s.setIe x).mem = s.mem := rfl
@[simp] theorem setIe_count (x : Bool) : (s.setIe x).count = s.count := rfl
@[simp] theorem setIe_delta (x : Bool) : (s.setIe x).delta = s.delta := rfl
@[simp] theorem setIe_pend (x : Bool) : (s.setIe x).pend = s.pend := rfl
@[simp] theorem setIe_dl (x : Bool) : (s.setIe x).dl = s.dl := rfl
@[simp] theorem setIe_wp (x : Bool) : (s.setIe x).wp = s.wp := rfl
@[simp] theorem setIe_acc (x : Bool) : (s.setIe x).acc = s.acc := rfl
@[simp] theorem setIe_rst (x : Bool) : (s.setIe x).rst = s.rst := rfl
@[simp] theorem setIe_host (x : Bool) : (s.setIe x).host = s.host := rfl
@[simp] theorem setIe_sched (x : Bool) : (s.setIe x).sched = s.sched := rfl
@[simp] theorem setIe_resp (x : Bool) : (s.setIe x).resp = s.resp := rfl

@[simp] theorem setParam0_cfg (x : Word) : (s.setParam0 x).cfg = s.cfg := rfl
@[simp] theorem setParam0_status (x : Word) : (s.setParam0 x).status = s.status := rfl
@[simp] theorem setParam0_ie (x : Word) : (s.setParam0 x).ie = s.ie := rfl
@[simp] theorem setParam0_param0 (x : Word) : (s.setParam0 x).param0 = x := rfl
@[simp] theorem setParam0_param1 (x : Word) : (s.setParam0 x).param1 = s.param1 := rfl
@[simp] theorem setParam0_mem (x : Word) : (s.setParam0 x).mem = s.mem := rfl
@[simp] theorem setParam0_count (x : Word) : (s.setParam0 x).count = s.count := rfl
@[simp] theorem setParam0_delta (x : Word) : (s.setParam0 x).delta = s.delta := rfl
@[simp] theorem setParam0_pend (x : Word) : (s.setParam0 x).pend = s.pend := rfl
@[simp] theorem setParam0_dl (x : Word) : (s.setParam0 x).dl = s.dl := rfl
@[simp] theorem setParam0_wp (x : Word) : (s.setParam0 x).wp = s.wp := rfl
@[simp] theorem setParam0_acc (x : Word) : (s.setParam0 x).acc = s.acc := rfl
@[simp] theorem setParam0_rst (x : Word) : (s.setParam0 x).rst = s.rst := rfl
@[simp] theorem setParam0_host (x : Word) : (s.setParam0 x).host = s.host := rfl
@[simp] theorem setParam0_sched (x : Word) : (s.setParam0 x).sched = s.sched := rfl
@[simp] theorem setParam0_resp (x : Word) : (s.setParam0 x).resp = s.resp := rfl

@[simp] theorem setParam1_cfg (x : Word) : (s.setParam1 x).cfg = s.cfg := rfl
@[simp] theorem setParam1_status (x : Word) : (s.setParam1 x).status = s.status := rfl
@[simp] theorem setParam1_ie (x : Word) : (s.setParam1 x).ie = s.ie := rfl
@[simp] theorem setParam1_param0 (x : Word) : (s.setParam1 x).param0 = s.param0 := rfl
@[simp] theorem setParam1_param1 (x : Word) : (s.setParam1 x).param1 = x := rfl
@[simp] theorem setParam1_mem (x : Word) : (s.setParam1 x).mem = s.mem := rfl
@[simp] theorem setParam1_count (x : Word) : (s.setParam1 x).count = s.count := rfl
@[simp] theorem setParam1_delta (x : Word) : (s.setParam1 x).delta = s.delta := rfl
@[simp] theorem setParam1_pend (x : Word) : (s.setParam1 x).pend = s.pend := rfl
@[simp] theorem setParam1_dl (x : Word) : (s.setParam1 x).dl = s.dl := rfl
@[simp] theorem setParam1_wp (x : Word) : (s.setParam1 x).wp = s.wp := rfl
@[simp] theorem setParam1_acc (x : Word) : (s.setParam1 x).acc = s.acc := rfl
@[simp] theorem setParam1_rst (x : Word) : (s.setParam1 x).rst = s.rst := rfl
@[simp] theorem setParam1_host (x : Word) : (s.setParam1 x).host = s.host := rfl
@[simp] theorem setParam1_sched (x : Word) : (s.setParam1 x).sched = s.sched := rfl
@[simp] theorem setParam1_resp (x : Word) : (s.setParam1 x).resp = s.resp := rfl

@[simp] theorem setMem_cfg (x : Memory) : (s.setMem x).cfg = s.cfg := rfl
@[simp] theorem setMem_status (x : Memory) : (s.setMem x).status = s.status := rfl
@[simp] theorem setMem_ie (x : Memory) : (s.setMem x).ie = s.ie := rfl
@[simp] theorem setMem_param0 (x : Memory) : (s.setMem x).param0 = s.param0 := rfl
@[simp] theorem setMem_param1 (x : Memory) : (s.setMem x).param1 = s.param1 := rfl
@[simp] theorem setMem_mem (x : Memory) : (s.setMem x).mem = x := rfl
@[simp] theorem setMem_count (x : Memory) : (s.setMem x).count = s.count := rfl
@[simp] theorem setMem_delta (x : Memory) : (s.setMem x).delta = s.delta := rfl
@[simp] theorem setMem_pend (x : Memory) : (s.setMem x).pend = s.pend := rfl
@[simp] theorem setMem_dl (x : Memory) : (s.setMem x).dl = s.dl := rfl
@[simp] theorem setMem_wp (x : Memory) : (s.setMem x).wp = s.wp := rfl
@[simp] theorem setMem_acc (x : Memory) : (s.setMem x).acc = s.acc := rfl
@[simp] theorem setMem_rst (x : Memory) : (s.setMem x).rst = s.rst := rfl
@[simp] theorem setMem_host (x : Memory) : (s.setMem x).host = s.host := rfl
@[simp] theorem setMem_sched (x : Memory) : (s.setMem x).sched = s.sched := rfl
@[simp] theorem setMem_resp (x : Memory) : (s.setMem x).resp = s.resp := rfl

@[simp] theorem setCount_cfg (x : Word) : (s.setCount x).cfg = s.cfg := rfl
@[simp] theorem setCount_status (x : Word) : (s.setCount x).status = s.status := rfl
@[simp] theorem setCount_ie (x : Word) : (s.setCount x).ie = s.ie := rfl
@[simp] theorem setCount_param0 (x : Word) : (s.setCount x).param0 = s.param0 := rfl
@[simp] theorem setCount_param1 (x : Word) : (s.setCount x).param1 = s.param1 := rfl
@[simp] theorem setCount_mem (x : Word) : (s.setCount x).mem = s.mem := rfl
@[simp] theorem setCount_count (x : Word) : (s.setCount x).count = x := rfl
@[simp] theorem setCount_delta (x : Word) : (s.setCount x).delta = s.delta := rfl
@[simp] theorem setCount_pend (x : Word) : (s.setCount x).pend = s.pend := rfl
@[simp] theorem setCount_dl (x : Word) : (s.setCount x).dl = s.dl := rfl
@[simp] theorem setCount_wp (x : Word) : (s.setCount x).wp = s.wp := rfl
@[simp] theorem setCount_acc (x : Word) : (s.setCount x).acc = s.acc := rfl
@[simp] theorem setCount_rst (x : Word) : (s.setCount x).rst = s.rst := rfl
@[simp] theorem setCount_host (x : Word) : (s.setCount x).host = s.host := rfl
@[simp] theorem setCount_sched (x : Word) : (s.setCount x).sched = s.sched := rfl
@[simp] theorem setCount_resp (x : Word) : (s.setCount x).resp = s.resp := rfl

@[simp] theorem setDelta_cfg (x : Word) : (s.setDelta x).cfg = s.cfg := rfl
@[simp] theorem setDelta_status (x : Word) : (s.setDelta x).status = s.status := rfl
@[simp] theorem setDelta_ie (x : Word) : (s.setDelta x).ie = s.ie := rfl
@[simp] theorem setDelta_param0 (x : Word) : (s.setDelta x).param0 = s.param0 := rfl
@[simp] theorem setDelta_param1 (x : Word) : (s.setDelta x).param1 = s.param1 := rfl
@[simp] theorem setDelta_mem (x : Word) : (s.setDelta x).mem = s.mem := rfl
@[simp] theorem setDelta_count (x : Word) : (s.setDelta x).count = s.count := rfl
@[simp] theorem setDelta_delta (x : Word) : (s.setDelta x).delta = x := rfl
@[simp] theorem setDelta_pend (x : Word) : (s.setDelta x).pend = s.pend := rfl
@[simp] theorem setDelta_dl (x : Word) : (s.setDelta x).dl = s.dl := rfl
@[simp] theorem setDelta_wp (x : Word) : (s.setDelta x).wp = s.wp := rfl
@[simp] theorem setDelta_acc (x : Word) : (s.setDelta x).acc = s.acc := rfl
@[simp] theorem setDelta_rst (x : Word) : (s.setDelta x).rst = s.rst := rfl
@[simp] theorem setDelta_host (x : Word) : (s.setDelta x).host = s.host := rfl
@[simp] theorem setDelta_sched (x : Word) : (s.setDelta x).sched = s.sched := rfl
@[simp] theorem setDelta_resp (x : Word) : (s.setDelta x).resp = s.resp := rfl

@[simp] theorem setPend_cfg (x : Option Pending) : (s.setPend x).cfg = s.cfg := rfl
@[simp] theorem setPend_status (x : Option Pending) : (s.setPend x).status = s.status := rfl
@[simp] theorem setPend_ie (x : Option Pending) : (s.setPend x).ie = s.ie := rfl
@[simp] theorem setPend_param0 (x : Option Pending) : (s.setPend x).param0 = s.param0 := rfl
@[simp] theorem setPend_param1 (x : Option Pending) : (s.setPend x).param1 = s.param1 := rfl
@[simp] theorem setPend_mem (x : Option Pending) : (s.setPend x).mem = s.mem := rfl
@[simp] theorem setPend_count (x : Option Pending) : (s.setPend x).count = s.count := rfl
@[simp] theorem setPend_delta (x : Option Pending) : (s.setPend x).delta = s.delta := rfl
@[simp] theorem setPend_pend (x : Option Pending) : (s.setPend x).pend = x := rfl
@[simp] theorem setPend_dl (x : Option Pending) : (s.setPend x).dl = s.dl := rfl
@[simp] theorem setPend_wp (x : Option Pending) : (s.setPend x).wp = s.wp := rfl
@[simp] theorem setPend_acc (x : Option Pending) : (s.setPend x).acc = s.acc := rfl
@[simp] theorem setPend_rst (x : Option Pending) : (s.setPend x).rst = s.rst := rfl
@[simp] theorem setPend_host (x : Option Pending) : (s.setPend x).host = s.host := rfl
@[simp] theorem setPend_sched (x : Option Pending) : (s.setPend x).sched = s.sched := rfl
@[simp] theorem setPend_resp (x : Option Pending) : (s.setPend x).resp = s.resp := rfl

@[simp] theorem setDl_cfg (x : List Sample) : (s.setDl x).cfg = s.cfg := rfl
@[simp] theorem setDl_status (x : List Sample) : (s.setDl x).status = s.status := rfl
@[simp] theorem setDl_ie (x : List Sample) : (s.setDl x).ie = s.ie := rfl
@[simp] theorem setDl_param0 (x : List Sample) : (s.setDl x).param0 = s.param0 := rfl
@[simp] theorem setDl_param1 (x : List Sample) : (s.setDl x).param1 = s.param1 := rfl
@[simp] theorem setDl_mem (x : List Sample) : (s.setDl x).mem = s.mem := rfl
@[simp] theorem setDl_count (x : List Sample) : (s.setDl x).count = s.count := rfl
@[simp] theorem setDl_delta (x : List Sample) : (s.setDl x).delta = s.delta := rfl
@[simp] theorem setDl_pend (x : List Sample) : (s.setDl x).pend = s.pend := rfl
@[simp] theorem setDl_dl (x : List Sample) : (s.setDl x).dl = x := rfl
@[simp] theorem setDl_wp (x : List Sample) : (s.setDl x).wp = s.wp := rfl
@[simp] theorem setDl_acc (x : List Sample) : (s.setDl x).acc = s.acc := rfl
@[simp] theorem setDl_rst (x : List Sample) : (s.setDl x).rst = s.rst := rfl
@[simp] theorem setDl_host (x : List Sample) : (s.setDl x).host = s.host := rfl
@[simp] theorem setDl_sched (x : List Sample) : (s.setDl x).sched = s.sched := rfl
@[simp] theorem setDl_resp (x : List Sample) : (s.setDl x).resp = s.resp := rfl

@[simp] theorem setWp_cfg (x : Nat) : (s.setWp x).cfg = s.cfg := rfl
@[simp] theorem setWp_status (x : Nat) : (s.setWp x).status = s.status := rfl
@[simp] theorem setWp_ie (x : Nat) : (s.setWp x).ie = s.ie := rfl
@[simp] theorem setWp_param0 (x : Nat) : (s.setWp x).param0 = s.param0 := rfl
@[simp] theorem setWp_param1 (x : Nat) : (s.setWp x).param1 = s.param1 := rfl
@[simp] theorem setWp_mem (x : Nat) : (s.setWp x).mem = s.mem := rfl
@[simp] theorem setWp_count (x : Nat) : (s.setWp x).count = s.count := rfl
@[simp] theorem setWp_delta (x : Nat) : (s.setWp x).delta = s.delta := rfl
@[simp] theorem setWp_pend (x : Nat) : (s.setWp x).pend = s.pend := rfl
@[simp] theorem setWp_dl (x : Nat) : (s.setWp x).dl = s.dl := rfl
@[simp] theorem setWp_wp (x : Nat) : (s.setWp x).wp = x := rfl
@[simp] theorem setWp_acc (x : Nat) : (s.setWp x).acc = s.acc := rfl
@[simp] theorem setWp_rst (x : Nat) : (s.setWp x).rst = s.rst := rfl
@[simp] theorem setWp_host (x : Nat) : (s.setWp x).host = s.host := rfl
@[simp] theorem setWp_sched (x : Nat) : (s.setWp x).sched = s.sched := rfl
@[simp] theorem setWp_resp (x : Nat) : (s.setWp x).resp = s.resp := rfl

@[simp] theorem setAcc_cfg (x : BitVec 48) : (s.setAcc x).cfg = s.cfg := rfl
@[simp] theorem setAcc_status (x : BitVec 48) : (s.setAcc x).status = s.status := rfl
@[simp] theorem setAcc_ie (x : BitVec 48) : (s.setAcc x).ie = s.ie := rfl
@[simp] theorem setAcc_param0 (x : BitVec 48) : (s.setAcc x).param0 = s.param0 := rfl
@[simp] theorem setAcc_param1 (x : BitVec 48) : (s.setAcc x).param1 = s.param1 := rfl
@[simp] theorem setAcc_mem (x : BitVec 48) : (s.setAcc x).mem = s.mem := rfl
@[simp] theorem setAcc_count (x : BitVec 48) : (s.setAcc x).count = s.count := rfl
@[simp] theorem setAcc_delta (x : BitVec 48) : (s.setAcc x).delta = s.delta := rfl
@[simp] theorem setAcc_pend (x : BitVec 48) : (s.setAcc x).pend = s.pend := rfl
@[simp] theorem setAcc_dl (x : BitVec 48) : (s.setAcc x).dl = s.dl := rfl
@[simp] theorem setAcc_wp (x : BitVec 48) : (s.setAcc x).wp = s.wp := rfl
@[simp] theorem setAcc_acc (x : BitVec 48) : (s.setAcc x).acc = x := rfl
@[simp] theorem setAcc_rst (x : BitVec 48) : (s.setAcc x).rst = s.rst := rfl
@[simp] theorem setAcc_host (x : BitVec 48) : (s.setAcc x).host = s.host := rfl
@[simp] theorem setAcc_sched (x : BitVec 48) : (s.setAcc x).sched = s.sched := rfl
@[simp] theorem setAcc_resp (x : BitVec 48) : (s.setAcc x).resp = s.resp := rfl

@[simp] theorem setRst_cfg (x : Bool) : (s.setRst x).cfg = s.cfg := rfl
@[simp] theorem setRst_status (x : Bool) : (s.setRst x).status = s.status := rfl
@[simp] theorem setRst_ie (x : Bool) : (s.setRst x).ie = s.ie := rfl
@[simp] theorem setRst_param0 (x : Bool) : (s.setRst x).param0 = s.param0 := rfl
@[simp] theorem setRst_param1 (x : Bool) : (s.setRst x).param1 = s.param1 := rfl
@[simp] theorem setRst_mem (x : Bool) : (s.setRst x).mem = s.mem := rfl
@[simp] theorem setRst_count (x : Bool) : (s.setRst x).count = s.count := rfl
@[simp] theorem setRst_delta (x : Bool) : (s.setRst x).delta = s.delta := rfl
@[simp] theorem setRst_pend (x : Bool) : (s.setRst x).pend = s.pend := rfl
@[simp] theorem setRst_dl (x : Bool) : (s.setRst x).dl = s.dl := rfl
@[simp] theorem setRst_wp (x : Bool) : (s.setRst x).wp = s.wp := rfl
@[simp] theorem setRst_acc (x : Bool) : (s.setRst x).acc = s.acc := rfl
@[simp] theorem setRst_rst (x : Bool) : (s.setRst x).rst = x := rfl
@[simp] theorem setRst_host (x : Bool) : (s.setRst x).host = s.host := rfl
@[simp] theorem setRst_sched (x : Bool) : (s.setRst x).sched = s.sched := rfl
@[simp] theorem setRst_resp (x : Bool) : (s.setRst x).resp = s.resp := rfl

@[simp] theorem setHost_cfg (x : List HostOp) : (s.setHost x).cfg = s.cfg := rfl
@[simp] theorem setHost_status (x : List HostOp) : (s.setHost x).status = s.status := rfl
@[simp] theorem setHost_ie (x : List HostOp) : (s.setHost x).ie = s.ie := rfl
@[simp] theorem setHost_param0 (x : List HostOp) : (s.setHost x).param0 = s.param0 := rfl
@[simp] theorem setHost_param1 (x : List HostOp) : (s.setHost x).param1 = s.param1 := rfl
@[simp] theorem setHost_mem (x : List HostOp) : (s.setHost x).mem = s.mem := rfl
@[simp] theorem setHost_count (x : List HostOp) : (s.setHost x).count = s.count := rfl
@[simp] theorem setHost_delta (x : List HostOp) : (s.setHost x).delta = s.delta := rfl
@[simp] theorem setHost_pend (x : List HostOp) : (s.setHost x).pend = s.pend := rfl
@[simp] theorem setHost_dl (x : List HostOp) : (s.setHost x).dl = s.dl := rfl
@[simp] theorem setHost_wp (x : List HostOp) : (s.setHost x).wp = s.wp := rfl
@[simp] theorem setHost_acc (x : List HostOp) : (s.setHost x).acc = s.acc := rfl
@[simp] theorem setHost_rst (x : List HostOp) : (s.setHost x).rst = s.rst := rfl
@[simp] theorem setHost_host (x : List HostOp) : (s.setHost x).host = x := rfl
@[simp] theorem setHost_sched (x : List HostOp) : (s.setHost x).sched = s.sched := rfl
@[simp] theorem setHost_resp (x : List HostOp) : (s.setHost x).resp = s.resp := rfl

@[simp] theorem setSched_cfg (x : List Turn) : (s.setSched x).cfg = s.cfg := rfl
@[simp] theorem setSched_status (x : List Turn) : (s.setSched x).status = s.status := rfl
@[simp] theorem setSched_ie (x : List Turn) : (s.setSched x).ie = s.ie := rfl
@[simp] theorem setSched_param0 (x : List Turn) : (s.setSched x).param0 = s.param0 := rfl
@[simp] theorem setSched_param1 (x : List Turn) : (s.setSched x).param1 = s.param1 := rfl
@[simp] theorem setSched_mem (x : List Turn) : (s.setSched x).mem = s.mem := rfl
@[simp] theorem setSched_count (x : List Turn) : (s.setSched x).count = s.count := rfl
@[simp] theorem setSched_delta (x : List Turn) : (s.setSched x).delta = s.delta := rfl
@[simp] theorem setSched_pend (x : List Turn) : (s.setSched x).pend = s.pend := rfl
@[simp] theorem setSched_dl (x : List Turn) : (s.setSched x).dl = s.dl := rfl
@[simp] theorem setSched_wp (x : List Turn) : (s.setSched x).wp = s.wp := rfl
@[simp] theorem setSched_acc (x : List Turn) : (s.setSched x).acc = s.acc := rfl
@[simp] theorem setSched_rst (x : List Turn) : (s.setSched x).rst = s.rst := rfl
@[simp] theorem setSched_host (x : List Turn) : (s.setSched x).host = s.host := rfl
@[simp] theorem setSched_sched (x : List Turn) : (s.setSched x).sched = x := rfl
@[simp] theorem setSched_resp (x : List Turn) : (s.setSched x).resp = s.resp := rfl

@[simp] theorem setResp_cfg (x : Option Response) : (s.setResp x).cfg = s.cfg := rfl
@[simp] theorem setResp_status (x : Option Response) : (s.setResp x).status = s.status := rfl
@[simp] theorem setResp_ie (x : Option Response) : (s.setResp x).ie = s.ie := rfl
@[simp] theorem setResp_param0 (x : Option Response) : (s.setResp x).param0 = s.param0 := rfl
@[simp] theorem setResp_param1 (x : Option Response) : (s.setResp x).param1 = s.param1 := rfl
@[simp] theorem setResp_mem (x : Option Response) : (s.setResp x).mem = s.mem := rfl
@[simp] theorem setResp_count (x : Option Response) : (s.setResp x).count = s.count := rfl
@[simp] theorem setResp_delta (x : Option Response) : (s.setResp x).delta = s.delta := rfl
@[simp] theorem setResp_pend (x : Option Response) : (s.setResp x).pend = s.pend := rfl
@[simp] theorem setResp_dl (x : Option Response) : (s.setResp x).dl = s.dl := rfl
@[simp] theorem setResp_wp (x : Option Response) : (s.setResp x).wp = s.wp := rfl
@[simp] theorem setResp_acc (x : Option Response) : (s.setResp x).acc = s.acc := rfl
@[simp] theorem setResp_rst (x : Option Response) : (s.setResp x).rst = s.rst := rfl
@[simp] theorem setResp_host (x : Option Response) : (s.setResp x).host = s.host := rfl
@[simp] theorem setResp_sched (x : Option Response) : (s.setResp x).sched = s.sched := rfl
@[simp] theorem setResp_resp (x : Option Response) : (s.setResp x).resp = x := rfl

@[simp] theorem resetWith_cfg (c : Config) : (resetWith c).cfg = c := rfl
@[simp] theorem resetWith_status (c : Config) : (resetWith c).status = { busy := false, done := false, err := false, ovr := false, errcode := 0 } := rfl
@[simp] theorem resetWith_ie (c : Config) : (resetWith c).ie = false := rfl
@[simp] theorem resetWith_param0 (c : Config) : (resetWith c).param0 = 0 := rfl
@[simp] theorem resetWith_param1 (c : Config) : (resetWith c).param1 = 0 := rfl
@[simp] theorem resetWith_mem (c : Config) : (resetWith c).mem = { buf0 := [], buf1 := [] } := rfl
@[simp] theorem resetWith_count (c : Config) : (resetWith c).count = 0 := rfl
@[simp] theorem resetWith_delta (c : Config) : (resetWith c).delta = 0 := rfl
@[simp] theorem resetWith_pend (c : Config) : (resetWith c).pend = none := rfl
@[simp] theorem resetWith_dl (c : Config) : (resetWith c).dl = [] := rfl
@[simp] theorem resetWith_wp (c : Config) : (resetWith c).wp = 0 := rfl
@[simp] theorem resetWith_acc (c : Config) : (resetWith c).acc = 0 := rfl
@[simp] theorem resetWith_rst (c : Config) : (resetWith c).rst = false := rfl
@[simp] theorem resetWith_host (c : Config) : (resetWith c).host = [] := rfl
@[simp] theorem resetWith_sched (c : Config) : (resetWith c).sched = [] := rfl
@[simp] theorem resetWith_resp (c : Config) : (resetWith c).resp = none := rfl

/-- Two states with equal fields are equal. -/
theorem eq_of_fields {s t : State} (h0 : s.cfg = t.cfg) (h1 : s.status = t.status) (h2 : s.ie = t.ie)
    (h3 : s.param0 = t.param0) (h4 : s.param1 = t.param1) (h5 : s.mem = t.mem) (h6 : s.count = t.count)
    (h7 : s.delta = t.delta) (h8 : s.pend = t.pend) (h9 : s.dl = t.dl) (h10 : s.wp = t.wp)
    (h11 : s.acc = t.acc) (h12 : s.rst = t.rst) (h13 : s.host = t.host) (h14 : s.sched = t.sched)
    (h15 : s.resp = t.resp) : s = t := by
  cases s; cases t; simp_all

end Sys2Proof.Machine.State
end

