-- ==== Sys2Proof/Laws/Memory.lean ====
section
/-! SUPPORT. The buffers: read after write, and that every memory operation keeps them within MAXLEN. -/

namespace Sys2Proof.Machine

@[simp] theorem Memory.set_buf_same (m : Memory) (c : Chan) (b : List Sample) : (m.set c b).buf c = b := by
  cases c <;> rfl

@[simp] theorem Memory.set_buf_other (m : Memory) {c d : Chan} (h : d ≠ c) (b : List Sample) :
    (m.set c b).buf d = m.buf d := by
  cases c <;> cases d <;> first | rfl | exact absurd rfl h

@[simp] theorem Memory.set_buf_self (m : Memory) (c : Chan) : m.set c (m.buf c) = m := by
  cases c <;> rfl

theorem Memory.ext_buf {m k : Memory} (h : ∀ c, m.buf c = k.buf c) : m = k := by
  obtain ⟨a, b⟩ := m
  obtain ⟨a', b'⟩ := k
  have h0 := h .left
  have h1 := h .right
  simp only [Memory.buf] at h0 h1
  rw [h0, h1]

theorem Memory.wf_iff (l : Nat) (m : Memory) : m.wf l = true ↔ ∀ c, (m.buf c).length ≤ l := by
  simp only [Memory.wf, Bool.and_eq_true, decide_eq_true_eq]
  constructor
  · rintro ⟨h0, h1⟩ (_ | _)
    · exact h0
    · exact h1
  · intro h
    exact ⟨h .left, h .right⟩

@[simp] theorem resize_length (b : List Sample) (v : Nat) : (resize b v).length = v := by
  unfold resize; split <;> simp <;> omega

@[simp] theorem storeSample_length (b : List Sample) (i : Nat) (w : Word) :
    (storeSample b i w).length = b.length := by
  simp [storeSample]

/-- A store at or beyond the length is ignored (20_memory.md R64). -/
theorem storeSample_of_le {b : List Sample} {i : Nat} (h : b.length ≤ i) (w : Word) : storeSample b i w = b :=
  List.set_eq_of_length_le h

/-- Read after write: the sample stored is the one read, sign-extended (20_memory.md R63, R64). -/
theorem sampleWord_storeSample_same {b : List Sample} {i : Nat} (h : i < b.length) (w : Word) :
    sampleWord (storeSample b i w) i = (w.setWidth 16).signExtend 32 := by
  simp [sampleWord, storeSample, h]

theorem sampleWord_storeSample_other {b : List Sample} {i j : Nat} (h : j ≠ i) (w : Word) :
    sampleWord (storeSample b i w) j = sampleWord b j := by
  simp [sampleWord, storeSample, List.getElem?_set_ne (Ne.symm h)]

/-- Every write of one buffer that fits MAXLEN keeps the memory well-formed. -/
theorem Memory.wf_set {l : Nat} {m : Memory} (h : m.wf l = true) (c : Chan) {b : List Sample}
    (hb : b.length ≤ l) : (m.set c b).wf l = true := by
  rw [Memory.wf_iff] at h ⊢
  intro d
  by_cases hd : d = c
  · subst hd; simpa using hb
  · simpa [hd] using h d

theorem Memory.wf_resize {l : Nat} {m : Memory} (h : m.wf l = true) (c : Chan) {v : Nat} (hv : v ≤ l) :
    (m.set c (resize (m.buf c) v)).wf l = true :=
  wf_set h c (by simpa using hv)

theorem Memory.wf_storeSample {l : Nat} {m : Memory} (h : m.wf l = true) (c : Chan) (i : Nat) (w : Word) :
    (m.set c (storeSample (m.buf c) i w)).wf l = true :=
  wf_set h c (by simpa using (wf_iff l m).1 h c)

@[simp] theorem Memory.mapSelected_buf (m : Memory) (ch : ChanSel) (f : List Sample → List Sample) (c : Chan) :
    (m.mapSelected ch f).buf c = if selects ch c then f (m.buf c) else m.buf c := by
  cases c <;> rfl

/-- A commit's write keeps the memory well-formed when every selected result fits. -/
theorem Memory.wf_mapSelected {l : Nat} {m : Memory} (h : m.wf l = true) {ch : ChanSel}
    {f : List Sample → List Sample} (hf : ∀ c, selects ch c = true → (f (m.buf c)).length ≤ l) :
    (m.mapSelected ch f).wf l = true := by
  rw [Memory.wf_iff] at h ⊢
  intro c
  rw [mapSelected_buf]
  split
  · exact hf c ‹_›
  · exact h c

theorem State.reset_mem_wf (c : Config) : (State.resetWith c).mem.wf c.maxLen = true := by
  simp [Memory.wf]

end Sys2Proof.Machine
end

