-- ==== Sys2Proof/Laws/Ops.lean ====
section
/-! SUPPORT. What each shared operation can do, said once. -/

namespace Sys2Proof.Machine

/-- Issue, busy: dropped. -/
theorem issue_busy {s : State} (h : s.status.busy = true) (op : Op) (ch : ChanSel) :
    issue op ch s = s.setStatus s.status.dropped := by
  simp [issue, h, State.drop]

/-- Issue, a check failed: reported. -/
theorem issue_rejected {s : State} {op : Op} {ch : ChanSel} {e : ErrCode} (h : s.status.busy = false)
    (hc : check op ch s = some e) : issue op ch s = s.setStatus (s.status.issued.raise e) := by
  simp [issue, h, hc, State.report, State.setStatus]

/-- Issue, all checks passed: accepted. -/
theorem issue_accepted {s : State} {op : Op} {ch : ChanSel} (h : s.status.busy = false)
    (hc : check op ch s = none) :
    issue op ch s = (s.setStatus s.status.issued.accepted).setPend (some (latch op ch s)) := by
  simp [issue, h, hc, State.accept, State.setStatus]

/-- Everything a CMD write of a command can do. -/
theorem issue_cases (op : Op) (ch : ChanSel) (s : State) :
    (s.status.busy = true ∧ issue op ch s = s.setStatus s.status.dropped) ∨
    (s.status.busy = false ∧ ∃ e, check op ch s = some e ∧
      issue op ch s = s.setStatus (s.status.issued.raise e)) ∨
    (s.status.busy = false ∧ check op ch s = none ∧
      issue op ch s = (s.setStatus s.status.issued.accepted).setPend (some (latch op ch s))) := by
  cases hb : s.status.busy
  · cases hc : check op ch s with
    | none => exact .inr (.inr ⟨rfl, rfl, issue_accepted hb hc⟩)
    | some e => exact .inr (.inl ⟨rfl, e, rfl, issue_rejected hb hc⟩)
  · exact .inl ⟨rfl, issue_busy hb op ch⟩

/-- Everything a CMD write of a word of no row can do. -/
theorem rejectWord_cases (s : State) :
    (s.status.busy = true ∧ rejectWord s = s.setStatus s.status.dropped) ∨
    (s.status.busy = false ∧ rejectWord s = s.setStatus (s.status.issued.raise .badCmd)) := by
  cases hb : s.status.busy
  · exact .inr ⟨rfl, by simp [rejectWord, hb, State.report, State.setStatus]⟩
  · exact .inl ⟨rfl, by simp [rejectWord, hb, State.drop]⟩

/-- What the checks guarantee when none fails (60_exceptions.md R213). -/
theorem check_none_iff (op : Op) (ch : ChanSel) (s : State) :
    check op ch s = none ↔ ch ≠ .reserved ∧ paramError op s.param0 s.param1 = none ∧
      (ch = .both → s.mem.len .left = s.mem.len .right) ∧
      roomError s.cfg op s.param0 (selectedLen s.mem ch) = none := by
  unfold check
  by_cases h : ch = .reserved
  · simp [h]
  · cases hp : paramError op s.param0 s.param1 with
    | some e => simp [h]
    | none =>
      by_cases hl : ch = .both ∧ s.mem.len .left ≠ s.mem.len .right
      · simp [hl]
      · rw [if_neg h]
        simp only [if_neg hl]
        simp only [not_and, not_not] at hl
        exact ⟨fun hm => ⟨h, trivial, hl, hm⟩, fun hm => hm.2.2.2⟩

theorem paramError_none {op : Op} {p0 p1 : Word} (h : paramError op p0 p1 = none) : p0 ≠ 0#32 := by
  intro hp
  cases op <;> simp [paramError, hp] at h

/-- The checks read only the configuration, the parameters and the buffers. -/
theorem check_congr {s t : State} (op : Op) (ch : ChanSel) (hc : t.cfg = s.cfg) (h0 : t.param0 = s.param0)
    (h1 : t.param1 = s.param1) (hm : t.mem = s.mem) : check op ch t = check op ch s := by
  simp [check, hc, h0, h1, hm]

theorem latch_congr {s t : State} (op : Op) (ch : ChanSel) (h0 : t.param0 = s.param0)
    (h1 : t.param1 = s.param1) (hm : t.mem = s.mem) : latch op ch t = latch op ch s := by
  simp [latch, h0, h1, hm]

/-- Where the lengths agree, every selected buffer has the latched length. -/
theorem selectedLen_of_selects {m : Memory} {ch : ChanSel} {c : Chan}
    (hb : ch = .both → m.len .left = m.len .right) (hs : selects ch c = true) :
    selectedLen m ch = (m.buf c).length := by
  cases ch <;> cases c <;> simp_all [selects, selectedLen, Memory.len]

section commitWith

variable (t : List Sample → Lane) (p : Pending) (s : State)

@[simp] theorem commitWith_cfg : (commitWith t p s).cfg = s.cfg := rfl
@[simp] theorem commitWith_status : (commitWith t p s).status = s.status.committed := rfl
@[simp] theorem commitWith_ie : (commitWith t p s).ie = s.ie := rfl
@[simp] theorem commitWith_param0 : (commitWith t p s).param0 = s.param0 := rfl
@[simp] theorem commitWith_param1 : (commitWith t p s).param1 = s.param1 := rfl
@[simp] theorem commitWith_mem :
    (commitWith t p s).mem = s.mem.mapSelected p.chans fun b => (t b).out := rfl
@[simp] theorem commitWith_count :
    (commitWith t p s).count = BitVec.ofNat 32 (t (s.mem.selected p.chans)).cnt := rfl
@[simp] theorem commitWith_delta : (commitWith t p s).delta =
    BitVec.ofInt 32 (4 * (((t (s.mem.selected p.chans)).out.length : Int) - p.n)) := rfl
@[simp] theorem commitWith_pend : (commitWith t p s).pend = none := rfl
@[simp] theorem commitWith_dl : (commitWith t p s).dl = s.dl := rfl
@[simp] theorem commitWith_wp : (commitWith t p s).wp = s.wp := rfl
@[simp] theorem commitWith_acc : (commitWith t p s).acc = s.acc := rfl
@[simp] theorem commitWith_rst : (commitWith t p s).rst = s.rst := rfl
@[simp] theorem commitWith_host : (commitWith t p s).host = s.host := rfl
@[simp] theorem commitWith_sched : (commitWith t p s).sched = s.sched := rfl
@[simp] theorem commitWith_resp : (commitWith t p s).resp = s.resp := rfl

end commitWith

/-- The transform a commit applies to one channel, by opcode (41_volume.md to 44_echo.md). -/
def laneOf (p : Pending) (b : List Sample) : Lane :=
  match p.op with
  | .vol => volLane p.p0 b
  | .fadein => fadeinLane p.p0 b
  | .fadeout => fadeoutLane p.p0 b
  | .resample => resampleLane p.p0 b
  | .echo => echoLane p.p0 p.p1 b

/-- A commit is `commitWith` of its transform, but for the internal datapath. -/
theorem applyCommit_eq (p : Pending) (s : State) :
    applyCommit p s = { commitWith (laneOf p) p s with
      dl := (applyCommit p s).dl, wp := (applyCommit p s).wp, acc := (applyCommit p s).acc } := by
  obtain ⟨op, ch, p0, p1, n⟩ := p
  cases op <;> rfl

/-- The length every transform gives (43_resample.md R171, 44_echo.md R190). -/
theorem laneOf_length (p : Pending) (b : List Sample) :
    (laneOf p b).out.length = newLen p.op p.p0 b.length := by
  obtain ⟨op, ch, p0, p1, n⟩ := p
  cases op <;> simp [laneOf, volLane, fadeinLane, fadeoutLane, resampleLane, echoLane, newLen]

theorem dlWrite_length (dl : List Sample) (i : Nat) (x : Sample) :
    (dlWrite dl i x).length = max dl.length (i + 1) := by
  unfold dlWrite; split <;> simp <;> omega

/-- Read after write in the delay line. -/
@[simp] theorem dlRead_dlWrite_same (dl : List Sample) (i : Nat) (x : Sample) :
    dlRead (dlWrite dl i x) i = x := by
  unfold dlRead dlWrite
  split
  · simp [*]
  · rw [List.getD_eq_getElem?_getD, List.getElem?_append_right (by simp; omega)]
    simp; grind

/-- A write leaves every other entry of the delay line as it reads, written or not. -/
theorem dlRead_dlWrite_other {i j : Nat} (h : j ≠ i) (dl : List Sample) (x : Sample) :
    dlRead (dlWrite dl i x) j = dlRead dl j := by
  unfold dlRead dlWrite
  split
  · simp [List.getElem?_set_ne (Ne.symm h)]
  · simp only [List.getD_eq_getElem?_getD]
    by_cases h1 : j < dl.length
    · rw [List.append_assoc, List.getElem?_append_left h1]
    · rw [List.getElem?_eq_none (l := dl) (by omega)]
      by_cases h2 : j < i
      · rw [List.getElem?_append_left (by simp; omega), List.getElem?_append_right (by omega)]
        simp [show j - dl.length < i - dl.length by omega, show dl.length + (j - dl.length) = j by omega]
      · rw [List.getElem?_eq_none (by simp; omega)]

/-- Without a hazard the commit is a next state. -/
theorem commit_of_no_hazard {p : Pending} {s : State} (h : commitHazard p s = none) :
    commit p s = .next (applyCommit p s) := by
  simp [commit, h]

/-- The checks at acceptance rule out every hazard of the commit (60_exceptions.md R216). -/
theorem no_hazard_of_check {op : Op} {ch : ChanSel} {s : State} (h : check op ch s = none) :
    commitHazard (latch op ch s) s = none := by
  obtain ⟨hr, hp, hl, hm⟩ := (check_none_iff op ch s).1 h
  have h0 := paramError_none hp
  have hlen : ∀ c, selects ch c = true → s.mem.len c = selectedLen s.mem ch := fun c hc =>
    (selectedLen_of_selects hl hc).symm
  unfold commitHazard
  rw [if_neg, if_neg]
  · simp [latch, hm]
  · exact fun hz => h0 hz.2
  · rintro (h1 | ⟨h1, h2⟩ | ⟨h1, h2⟩)
    · exact hr h1
    · exact h2 (hlen _ h1)
    · exact h2 (hlen _ h1)

/-- Everything the engine's turn can do when it answers a next state. -/
theorem engineTurn_cases {s t : State} (h : engineTurn s = .next t) :
    t = s ∨ ∃ p, s.pend = some p ∧ s.rst = false ∧ commitHazard p s = none ∧ t = applyCommit p s := by
  unfold engineTurn at h
  cases hp : s.pend with
  | none => simp [hp] at h; exact .inl h.symm
  | some p =>
    simp only [hp] at h
    split at h
    · simp at h; exact .inl h.symm
    · unfold commit at h
      cases hz : commitHazard p s with
      | some f => simp [hz] at h
      | none =>
        simp only [hz, Host.Outcome.next.injEq] at h
        exact .inr ⟨p, rfl, by simpa using ‹¬s.rst = true›, hz, h.symm⟩

end Sys2Proof.Machine
end

