-- ==== Sys2Proof/Laws/Port.lean ====
section
/-! SUPPORT. What a host access and a step can do, said once. -/

namespace Sys2Proof.Machine

/-- A register's offset addresses that register (10_state.md R23). -/
@[simp] theorem target_offset (r : Reg) : target r.offset = .reg r := by
  cases r with
  | len c => cases c <;> rfl
  | _ => rfl

theorem windowBase_left : windowBase .left = 0x40000000 := rfl
theorem windowBase_right : windowBase .right = 0x80000000 := rfl

/-- An offset in a sample window addresses a sample word (20_memory.md R62). -/
theorem target_of_window {c : Chan} {a : Word} (h : windowBase c ≤ a.toNat)
    (h' : a.toNat < windowBase c + 0x40000000) :
    target a = .sample c ((a.toNat - windowBase c) / 4) := by
  unfold target
  generalize hl : windowBase .left = l
  generalize hr : windowBase .right = r
  have el : l = 0x40000000 := hl.symm
  have er : r = 0x80000000 := hr.symm
  cases c
  · rw [hl] at *
    rw [if_neg (by omega), if_neg (by omega), if_pos (by omega)]
  · rw [hr] at *
    rw [if_neg (by omega), if_neg (by omega), if_neg (by omega), if_pos (by omega)]

/-- The offset of the sample word i of channel c (20_memory.md R62). -/
theorem windowOffset_toNat (c : Chan) {i : Nat} (h : i < 0x10000000) :
    (BitVec.ofNat 32 (windowBase c + 4 * i)).toNat = windowBase c + 4 * i := by
  cases c <;> simp only [windowBase, BitVec.toNat_ofNat] <;> omega

theorem target_sample (c : Chan) {i : Nat} (h : i < 0x10000000) :
    target (BitVec.ofNat 32 (windowBase c + 4 * i)) = .sample c i := by
  have e := windowOffset_toNat c h
  rw [target_of_window (c := c) (by omega) (by omega), e]
  congr 1; omega

/-- The unmapped offsets (20_memory.md R65, 10_state.md R37). -/
theorem target_unmapped {a : Word}
    (h : (0x30 ≤ a.toNat ∧ a.toNat < 0x40000000) ∨ 0xC0000000 ≤ a.toNat) : target a = .unmapped := by
  unfold target
  generalize hl : windowBase .left = l
  generalize hr : windowBase .right = r
  have el : l = 0x40000000 := hl.symm
  have er : r = 0x80000000 := hr.symm
  rcases h with ⟨h1, h2⟩ | h
  · split
    · obtain ⟨k, hk⟩ : ∃ k, a.toNat / 4 = k + 12 := ⟨a.toNat / 4 - 12, by omega⟩
      rw [hk]; rfl
    · rw [if_pos (by omega)]
  · rw [if_neg (by omega), if_neg (by omega), if_neg (by omega), if_neg (by omega)]

/-- Every offset below 0x30 is in a register (10_state.md R23). -/
theorem target_register {a : Word} (h : a.toNat < 0x30) : ∃ r, target a = .reg r := by
  unfold target
  rw [if_pos (by omega)]
  obtain ⟨k, hk, e⟩ : ∃ k, k < 12 ∧ a.toNat / 4 = k := ⟨a.toNat / 4, by omega, rfl⟩
  rw [e]
  interval_cases k <;> exact ⟨_, rfl⟩

/-- Where the port accepts an access to a register (10_state.md R23). -/
theorem acceptedTarget_reg {s : State} (h : s.rst = false) (r : Reg) (k : AccessKind) :
    acceptedTarget s { addr := r.offset, size := .four, kind := k } = some (.reg r) := by
  have : r.offset.toNat % 4 = 0 := by cases r with
    | len c => cases c <;> rfl
    | _ => rfl
  simp [acceptedTarget, h, this]

/-- A register write is accepted with an acknowledgement, and does what the register's rule says. -/
theorem access_writeReg {s : State} (h : s.rst = false) (r : Reg) (w : Word) :
    access { addr := r.offset, size := .four, kind := .write w } s = writeReg r w (s.setResp (some .ack)) := by
  simp [access, acceptedTarget_reg h, writeTarget]

/-- A register read answers with the register's value and changes nothing else. -/
theorem access_readReg {s : State} (h : s.rst = false) (r : Reg) :
    access { addr := r.offset, size := .four, kind := .read } s =
      .next (s.setResp (some (.data (readReg s r)))) := by
  simp [access, acceptedTarget_reg h, readTarget]

/-- Every command's CMD write is `issue` of its transform and channels. -/
theorem exec_eq_issue (i : Instr) (s : State) : exec i s = .next (issue i.op i.ch s) := by
  cases i <;> rfl

/-- A CMD write always answers a next state, one of three. -/
theorem writeCmd_eq (w : Word) (s : State) :
    writeCmd w s = .next (match decodeRow w with
      | none => rejectWord s
      | some i => issue i.op i.ch s) := by
  unfold writeCmd
  cases decodeRow w with
  | none => rfl
  | some i => exact exec_eq_issue i s

/-- Everything a CMD write can do: drop the word, report an error, or latch a command whose checks
passed. -/
theorem writeCmd_cases {w : Word} {s t : State} (h : writeCmd w s = .next t) :
    (s.status.busy = true ∧ t = s.setStatus s.status.dropped) ∨
    (s.status.busy = false ∧ ∃ e, t = s.setStatus (s.status.issued.raise e)) ∨
    (s.status.busy = false ∧ ∃ i, decodeRow w = some i ∧ check i.op i.ch s = none ∧
      t = (s.setStatus s.status.issued.accepted).setPend (some (latch i.op i.ch s))) := by
  rw [writeCmd_eq, Host.Outcome.next.injEq] at h
  subst h
  cases hd : decodeRow w with
  | none =>
    rcases rejectWord_cases s with ⟨hb, h⟩ | ⟨hb, h⟩
    · exact .inl ⟨hb, h⟩
    · exact .inr (.inl ⟨hb, _, h⟩)
  | some i =>
    rcases issue_cases i.op i.ch s with ⟨hb, h⟩ | ⟨hb, e, -, h⟩ | ⟨hb, hc, h⟩
    · exact .inl ⟨hb, h⟩
    · exact .inr (.inl ⟨hb, e, h⟩)
    · exact .inr (.inr ⟨hb, i, rfl, hc, h⟩)

/-- What one accepted write can do to the state, beside the response: all the ways, with their guards. -/
inductive WriteEffect (s : State) : State → Prop where
  | nothing : WriteEffect s s
  | dropped (h : s.status.busy = true) : WriteEffect s (s.setStatus s.status.dropped)
  | reported (h : s.status.busy = false) (e : ErrCode) :
      WriteEffect s (s.setStatus (s.status.issued.raise e))
  | accepted (h : s.status.busy = false) (i : Instr) (hc : check i.op i.ch s = none) :
      WriteEffect s ((s.setStatus s.status.issued.accepted).setPend (some (latch i.op i.ch s)))
  | cleared (w : Word) : WriteEffect s (s.setStatus (s.status.clear w))
  | ie (b : Bool) : WriteEffect s (s.setIe b)
  | param0 (h : s.status.busy = false) (w : Word) : WriteEffect s (s.setParam0 w)
  | param1 (h : s.status.busy = false) (w : Word) : WriteEffect s (s.setParam1 w)
  | lenRejected (h : s.status.busy = false) : WriteEffect s (s.setStatus (s.status.raise .lenRange))
  | resized (h : s.status.busy = false) (c : Chan) (v : Nat) (hv : v ≤ s.cfg.maxLen) :
      WriteEffect s (s.setMem (s.mem.set c (resize (s.mem.buf c) v)))
  | stored (h : s.status.busy = false) (c : Chan) (i : Nat) (w : Word) :
      WriteEffect s (s.setMem (s.mem.set c (storeSample (s.mem.buf c) i w)))

/-- Every write answers a next state, by one of the effects. -/
theorem writeTarget_effect (x : Target) (w : Word) (s : State) :
    ∃ t, writeTarget x w s = .next t ∧ WriteEffect s t := by
  cases x with
  | unmapped => exact ⟨s, rfl, .nothing⟩
  | sample c i =>
    refine ⟨_, rfl, ?_⟩
    cases hb : s.status.busy
    · simpa [writeSample, hb] using WriteEffect.stored hb c i w
    · simpa [writeSample, hb, State.drop] using WriteEffect.dropped hb
  | reg r =>
    cases r with
    | cmd =>
      obtain ⟨t, ht⟩ : ∃ t, writeCmd w s = .next t := ⟨_, writeCmd_eq w s⟩
      refine ⟨t, ht, ?_⟩
      rcases writeCmd_cases ht with ⟨hb, rfl⟩ | ⟨hb, e, rfl⟩ | ⟨hb, i, -, hc, rfl⟩
      · exact .dropped hb
      · exact .reported hb e
      · exact .accepted hb i hc
    | status => exact ⟨_, rfl, .cleared w⟩
    | ctrl => exact ⟨_, rfl, .ie _⟩
    | param0 =>
      refine ⟨_, rfl, ?_⟩
      cases hb : s.status.busy
      · simpa using WriteEffect.param0 hb w
      · simpa [State.drop] using WriteEffect.dropped hb
    | param1 =>
      refine ⟨_, rfl, ?_⟩
      cases hb : s.status.busy
      · simpa using WriteEffect.param1 hb w
      · simpa [State.drop] using WriteEffect.dropped hb
    | len c =>
      refine ⟨_, rfl, ?_⟩
      cases hb : s.status.busy
      · by_cases hv : w.toNat > s.cfg.maxLen
        · simpa [writeLen, hb, hv, State.report] using WriteEffect.lenRejected hb
        · simpa [writeLen, hb, hv] using WriteEffect.resized hb c w.toNat (by omega)
      · simpa [writeLen, hb, State.drop] using WriteEffect.dropped hb
    | count => exact ⟨s, rfl, .nothing⟩
    | delta => exact ⟨s, rfl, .nothing⟩
    | srate => exact ⟨s, rfl, .nothing⟩
    | maxlen => exact ⟨s, rfl, .nothing⟩
    | dlmax => exact ⟨s, rfl, .nothing⟩

/-- Every access answers a next state: a response alone, or an acknowledged write. -/
theorem access_cases (a : Access) (s : State) :
    (∃ r, access a s = .next (s.setResp (some r))) ∨
    (s.rst = false ∧ ∃ x w t, a.kind = .write w ∧ acceptedTarget s a = some x ∧ access a s = .next t ∧
      writeTarget x w (s.setResp (some .ack)) = .next t ∧ WriteEffect (s.setResp (some .ack)) t) := by
  unfold access
  cases ht : acceptedTarget s a with
  | none => exact .inl ⟨_, rfl⟩
  | some x =>
    cases hk : a.kind with
    | read => exact .inl ⟨_, rfl⟩
    | write w =>
      obtain ⟨t, h, he⟩ := writeTarget_effect x w (s.setResp (some .ack))
      refine .inr ⟨?_, x, w, t, rfl, rfl, h, h, he⟩
      by_contra hr
      simp [acceptedTarget, hr] at ht

/-- While the reset input is high every access gets a bus error (70_reset_and_hazards.md R240). -/
theorem access_in_reset {s : State} (h : s.rst = true) (a : Access) :
    access a s = .next (s.setResp (some .busError)) := by
  simp [access, acceptedTarget, h]

/-- Everything the host's turn can do: nothing; the next access; one more round of a wait loop; the
end of one. -/
theorem hostTurn_cases (s : State) :
    hostTurn s = .next s ∨
    (∃ a rest, s.host = .access a :: rest ∧ hostTurn s = access a (s.setHost rest)) ∨
    (∃ rest, s.host = .wait :: rest ∧ pollEnds (readResponse s pollAccess) = false ∧
      hostTurn s = .next (s.setResp (some (readResponse s pollAccess)))) ∨
    (∃ rest, s.host = .wait :: rest ∧ pollEnds (readResponse s pollAccess) = true ∧
      hostTurn s = .next ((s.setHost rest).setResp (some (readResponse s pollAccess)))) := by
  unfold hostTurn
  cases hh : s.host with
  | nil => exact .inl rfl
  | cons o rest =>
    cases o with
    | access a => exact .inr (.inl ⟨a, rest, rfl, rfl⟩)
    | wait =>
      cases hp : pollEnds (readResponse s pollAccess)
      · exact .inr (.inr (.inl ⟨rest, rfl, rfl, by simp [hp]⟩))
      · exact .inr (.inr (.inr ⟨rest, rfl, rfl, by simp [hp]⟩))

/-- With the reset input low the polling read returns STATUS. -/
theorem poll_reads_status {s : State} (h : s.rst = false) :
    readResponse s pollAccess = .data s.status.word := by
  simp [readResponse, acceptedTarget, h, pollAccess, Reg.offset, target, regAt, readTarget, readReg]

/-- A step is a turn of the agent `nextTurn` names, with a scheduled turn used up. -/
theorem step_eq (s : State) : step s = takeTurn (nextTurn s) (s.setSched s.sched.tail) := rfl

end Sys2Proof.Machine
end

