-- ==== Sys2Proof/Laws/Invariant.lean ====
section
/-! SUPPORT. What the invariant gives, and the updates that keep it: the model's own fields, one
accepted write, one access; and the bounds of the echo datapath. -/

namespace Sys2Proof.Machine

/-- The invariant reads none of the host's queue, the schedule and the response. -/
theorem State.Inv.of_same_device {s t : State} (h : s.Inv) (h0 : t.cfg = s.cfg)
    (h1 : t.status = s.status) (h2 : t.ie = s.ie)
    (h3 : t.param0 = s.param0) (h4 : t.param1 = s.param1) (h5 : t.mem = s.mem) (h6 : t.count = s.count)
    (h7 : t.delta = s.delta) (h8 : t.pend = s.pend) (h9 : t.dl = s.dl) (h10 : t.wp = s.wp)
    (h11 : t.acc = s.acc) (h12 : t.rst = s.rst) : t.Inv := by
  refine ⟨by rw [h0]; exact h.cfg, by rw [h0, h5]; exact h.mem, by rw [h1]; exact h.status, ?_, ?_, ?_⟩
  · obtain ⟨a, b⟩ := h.latch
    refine ⟨by rw [h8, h1]; exact a, ?_⟩
    intro p hp
    rw [h8] at hp
    rw [check_congr _ _ h0 h3 h4 h5, latch_congr _ _ h3 h4 h5]
    exact b p hp
  · unfold State.DatapathInRange; rw [h9, h0, h10, h11]; exact h.datapath
  · intro hr
    have e := h.reset (by rw [← h12]; exact hr)
    have f : ∀ {α} (g : State → α), g s = g (s.toReset true) := fun g => congrArg g e
    apply State.eq_of_fields
    · rfl
    · rw [h1]; exact f State.status
    · rw [h2]; exact f State.ie
    · rw [h3]; exact f State.param0
    · rw [h4]; exact f State.param1
    · rw [h5]; exact f State.mem
    · rw [h6]; exact f State.count
    · rw [h7]; exact f State.delta
    · rw [h8]; exact f State.pend
    · rw [h9]; exact f State.dl
    · rw [h10]; exact f State.wp
    · rw [h11]; exact f State.acc
    · exact hr
    · rfl
    · rfl
    · rfl

/-- Not busy, nothing is latched (10_state.md R41). -/
theorem State.Inv.pend_of_idle {s : State} (h : s.Inv) (hb : s.status.busy = false) : s.pend = none := by
  have := h.latch.1; rw [hb] at this; simpa using this

/-- A command in flight means the reset input is low. -/
theorem State.Inv.rst_of_pend {s : State} (h : s.Inv) {p} (hp : s.pend = some p) : s.rst = false := by
  by_contra hr
  have := h.reset (by simpa using hr)
  have e : s.pend = (s.toReset true).pend := congrArg State.pend this
  rw [hp] at e; cases e


/-- A command in flight means BUSY (10_state.md R41). -/
theorem State.Inv.busy_of_pend {s : State} (h : s.Inv) {p} (hp : s.pend = some p) : s.status.busy = true := by
  have := h.latch.1; rw [hp] at this; simpa using this.symm

/-- While a command is in flight there is no error (10_state.md R25). -/
theorem State.Inv.no_error_of_pend {s : State} (h : s.Inv) {p} (hp : s.pend = some p) :
    s.status.err = false ∧ s.status.errcode = 0 := by
  obtain ⟨hs1, hs2, hs3, hs4⟩ := h.status
  have hb := State.Inv.busy_of_pend h hp
  have : s.status.err = false := by
    cases hh : s.status.err
    · rfl
    · exact absurd ⟨hb, hh⟩ hs4
  exact ⟨this, hs1 this⟩

/-- A latched command has no hazard: its commit is defined (60_exceptions.md R216). -/
theorem State.Inv.no_hazard {s : State} (h : s.Inv) {p} (hp : s.pend = some p) : commitHazard p s = none := by
  obtain ⟨hc, hl⟩ := h.latch.2 p hp
  rw [hl]; exact no_hazard_of_check hc

/-- Every effect of an accepted write keeps the invariant. -/
theorem WriteEffect.keeps_inv {s t : State} (h : s.Inv) (hr : s.rst = false) (he : WriteEffect s t) : t.Inv := by
  obtain ⟨hs1, hs2, hs3, hs4⟩ := h.status
  cases he with
  | nothing => exact h
  | dropped hb =>
    refine ⟨h.cfg, h.mem, ⟨hs1, hs2, hs3, hs4⟩, h.latch, h.datapath, ?_⟩
    intro h'; simp [hr] at h'
  | reported hb e =>
    refine ⟨h.cfg, h.mem, ⟨by simp, fun _ => Status.errNumber_range e, by simp [hb], by simp [hb]⟩,
      ?_, h.datapath, ?_⟩
    · exact h.latch
    · intro h'; simp [hr] at h'
  | accepted hb i hc =>
    refine ⟨h.cfg, h.mem, ⟨by simp, by simp, by simp, by simp⟩, ⟨by simp, ?_⟩, h.datapath, ?_⟩
    · intro p hp; simp at hp; subst hp
      exact ⟨hc, rfl⟩
    · intro h'; simp [hr] at h'
  | cleared w =>
    refine ⟨h.cfg, h.mem, ⟨?_, ?_, ?_, ?_⟩, h.latch, h.datapath, ?_⟩
    · intro h'; simp at h' ⊢; intro h2; exact hs1 (by cases hh : s.status.err <;> simp_all)
    · simp; intro h1 h2; simp [h2]; exact hs2 h1
    · simp; intro h1 h2; simp_all
    · simp; intro h1 h2; simp_all
    · intro h'; simp [hr] at h'
  | ie b => exact ⟨h.cfg, h.mem, h.status, h.latch, h.datapath, fun h' => by simp [hr] at h'⟩
  | param0 hb w =>
    have hp := State.Inv.pend_of_idle h hb
    exact ⟨h.cfg, h.mem, h.status, ⟨h.latch.1, by simp [hp]⟩, h.datapath,
      fun h' => by simp [hr] at h'⟩
  | param1 hb w =>
    have hp := State.Inv.pend_of_idle h hb
    exact ⟨h.cfg, h.mem, h.status, ⟨h.latch.1, by simp [hp]⟩, h.datapath,
      fun h' => by simp [hr] at h'⟩
  | lenRejected hb =>
    have hp := State.Inv.pend_of_idle h hb
    refine ⟨h.cfg, h.mem, ⟨by simp, fun _ => Status.errNumber_range _, by simp [hb], by simp [hb]⟩,
      ⟨by simp [hp, hb], by simp [hp]⟩, h.datapath, fun h' => by simp [hr] at h'⟩
  | resized hb c v hv =>
    have hp := State.Inv.pend_of_idle h hb
    exact ⟨h.cfg, Memory.wf_resize h.mem c hv, h.status, ⟨h.latch.1, by simp [hp]⟩, h.datapath,
      fun h' => by simp [hr] at h'⟩
  | stored hb c i w =>
    have hp := State.Inv.pend_of_idle h hb
    exact ⟨h.cfg, Memory.wf_storeSample h.mem c i w, h.status, ⟨h.latch.1, by simp [hp]⟩, h.datapath,
      fun h' => by simp [hr] at h'⟩

theorem State.Inv.setResp {s : State} (h : s.Inv) (r) : (s.setResp r).Inv :=
  h.of_same_device rfl rfl rfl rfl rfl rfl rfl rfl rfl rfl rfl rfl rfl
theorem State.Inv.setHost {s : State} (h : s.Inv) (r) : (s.setHost r).Inv :=
  h.of_same_device rfl rfl rfl rfl rfl rfl rfl rfl rfl rfl rfl rfl rfl
theorem State.Inv.setSched {s : State} (h : s.Inv) (r) : (s.setSched r).Inv :=
  h.of_same_device rfl rfl rfl rfl rfl rfl rfl rfl rfl rfl rfl rfl rfl

theorem access_keeps_inv {s t : State} (h : s.Inv) (a : Access) (e : access a s = .next t) : t.Inv := by
  rcases access_cases a s with ⟨r, hr⟩ | ⟨hr, x, w, u, hk, hx, h1, h2, h3⟩
  · rw [hr] at e; cases e; exact State.Inv.setResp h _
  · rw [h1] at e; cases e; exact WriteEffect.keeps_inv (State.Inv.setResp h (some .ack)) hr h3

/-- The delay line never outgrows a bound that D fits, and its pointer stays below D (44_echo.md R193). -/
theorem delayLoop_bound (v : Word) (b : List Sample) (d : Nat) (hd : 0 < d) (m : Nat) (hm : d ≤ m) :
    ∀ k i l, l.dl.length ≤ m → l.wp < d →
    (delayLoop v b d k i l).2.dl.length ≤ m ∧ (delayLoop v b d k i l).2.wp < d := by
  intro k
  induction k with
  | zero => intro i l h1 h2; exact ⟨h1, h2⟩
  | succ k ih =>
    intro i l h1 h2
    simp only [delayLoop]
    exact ih _ _ (by simp only [dlWrite_length]; omega) (Nat.mod_lt _ hd)

/-- And so they stay after the lanes of one ECHO. -/
theorem delayLineAfter_bound (p0 p1 : Word) (hp : p0 ≠ 0#32) (m : Nat) (hm : sampleCount p0 ≤ m) :
    ∀ bs l, l.dl.length ≤ m → l.wp < m →
   (delayLineAfter p0 p1 bs l).dl.length ≤ m ∧ (delayLineAfter p0 p1 bs l).wp < m := by
  intro bs
  induction bs with
  | nil => intro l h1 h2; exact ⟨h1, h2⟩
  | cons b bs ih =>
    intro l h1 h2
    have := delayLoop_bound p1 b _ (sampleCount_pos hp) m hm (newLen .echo p0 b.length) 0 ⟨l.dl, 0⟩ h1
      (sampleCount_pos hp)
    exact ih _ this.1 (by have := this.2; simp only [echoDatapath]; omega)

/-- One step of a run. -/
theorem core_run_succ (k : Nat) (s t : State) (h : step s = .next t) : core.run (k+1) s = core.run k t := by
  have : core.step s = .next t := h
  simp only [Host.Core.run, this]

end Sys2Proof.Machine
end

