-- ==== Sys2Proof/Laws/PerInstr.lean ====
section
/-! SUPPORT. What is true of each command as syntax: its word has the fixed bits of its own row of
spec/opcode_table.json, and its CH field holds the number of its channels. -/

namespace Sys2Proof.Laws.TableRow

/-- The encoded word is covered by exactly one table row, the command's own, and keeps CH in bits
5:4 (30_encoding.md R90 to R92, R99). -/
def Statement (i : Instr) : Prop :=
  (opcodeTable.filter fun r => r.covers (encode i)).map OpcodeRow.mnemonic = [i.op.mnemonic] ∧
  chField (encode i) = chCode i.ch

theorem vol (ch : ChanSel) : Statement (.vol ch) := by cases ch <;> exact ⟨by decide, by decide⟩
theorem fadein (ch : ChanSel) : Statement (.fadein ch) := by cases ch <;> exact ⟨by decide, by decide⟩
theorem fadeout (ch : ChanSel) : Statement (.fadeout ch) := by cases ch <;> exact ⟨by decide, by decide⟩
theorem resample (ch : ChanSel) : Statement (.resample ch) := by cases ch <;> exact ⟨by decide, by decide⟩
theorem echo (ch : ChanSel) : Statement (.echo ch) := by cases ch <;> exact ⟨by decide, by decide⟩

end Sys2Proof.Laws.TableRow
end

