-- ==== Sys2Proof/Tests/Slice0.lean ====
section
/-! SUPPORT. The model's own tests, their expected results from spec/30_encoding.md and
spec/95_test_vectors.md, and for every statement with hypotheses a witness that meets them. -/

namespace Sys2Proof.Tests

open Sys2Proof.Machine Sys2Proof.Claims

/-! ### States to test on -/

/-- The instance MAXLEN = 8, DLMAX = 4 of 95_test_vectors.md. -/
def small : Config := { maxLen := 8, dlMax := 4 }

/-- Samples from their decimal values. -/
def samples (xs : List Int) : List Sample := xs.map (BitVec.ofInt 16)

/-- An idle state of the small instance. -/
def idle (p0 p1 : Word) (l r : List Int) : State :=
  { State.resetWith small with param0 := p0, param1 := p1, mem := { buf0 := samples l, buf1 := samples r } }

/-- A state right after the acceptance of a command from `idle`. -/
def busy (i : Instr) (p0 p1 : Word) (l r : List Int) : State :=
  issue i.op i.ch (idle p0 p1 l r)

/-- A property of the state an outcome holds; false of a fault and a refusal. -/
def after (o : Result) (p : State → Bool) : Bool :=
  match o with
  | .next t => p t
  | .fault _ => false
  | .refused _ => false

/-- A command from its CMD write to its commit. -/
def runs (i : Instr) (s : State) : Result :=
  match exec i s with
  | .next t => engineTurn t
  | .fault f => .fault f
  | .refused r => .refused r

/-- STATUS as read after a word is written to CMD. -/
def statusAfter (w : Word) (s : State) (x : Word) : Bool :=
  after (access (wrAt 0x00 w) s) fun t => t.status.word == x

/-- The response to an access. -/
def responds (a : Access) (s : State) (r : Response) : Bool :=
  after (access a s) fun t => t.resp == some r

/-! ### WellFormed: the one check, refused for each command -/

theorem test_wellFormed_vol : Instr.wellFormed (.vol .reserved) = false := by decide
theorem test_wellFormed_fadein : Instr.wellFormed (.fadein .reserved) = false := by decide
theorem test_wellFormed_fadeout : Instr.wellFormed (.fadeout .reserved) = false := by decide
theorem test_wellFormed_resample : Instr.wellFormed (.resample .reserved) = false := by decide
theorem test_wellFormed_echo : Instr.wellFormed (.echo .reserved) = false := by decide

/-! ### Decode: words written bit by bit from 30_encoding.md R90 to R92 (RSV, CH, OP) -/

theorem test_decode_vol :
    decodeRow 0b00000000000000000000000000_01_0001#32 = some (.vol .left) ∧
    decode 0b00000000000000000000000000_11_0001#32 = .ok (.vol .both) := ⟨by decide, by rfl⟩
theorem test_decode_fadein :
    decodeRow 0b00000000000000000000000000_10_0010#32 = some (.fadein .right) ∧
    decode 0b00000000000000000000000000_01_0010#32 = .ok (.fadein .left) := ⟨by decide, by rfl⟩
theorem test_decode_fadeout :
    decodeRow 0b00000000000000000000000000_11_0011#32 = some (.fadeout .both) ∧
    decode 0b00000000000000000000000000_10_0011#32 = .ok (.fadeout .right) := ⟨by decide, by rfl⟩
theorem test_decode_resample :
    decodeRow 0b00000000000000000000000000_01_0100#32 = some (.resample .left) ∧
    decode 0b00000000000000000000000000_11_0100#32 = .ok (.resample .both) := ⟨by decide, by rfl⟩
theorem test_decode_echo :
    decodeRow 0b00000000000000000000000000_10_0101#32 = some (.echo .right) ∧
    decode 0b00000000000000000000000000_11_0101#32 = .ok (.echo .both) := ⟨by decide, by rfl⟩

/-- The rejected words of 95_test_vectors.md V-DEC. -/
theorem test_decode_badCmd :
    decodeRow 0x00000000 = none ∧ decodeRow 0x00000010 = none ∧ decodeRow 0x00000016 = none ∧
    decodeRow 0x0000003F = none ∧ decodeRow 0x00000051 = none ∧ decodeRow 0x80000031 = none ∧
    decodeRow 0x00000006 = none ∧ decode 0x80000031 = .error .badCmd :=
  ⟨by decide, by decide, by decide, by decide, by decide, by decide, by decide, by rfl⟩
theorem test_decode_badChannel :
    decode 0x00000001 = .error .badChannel ∧ decode 0x00000005 = .error .badChannel := ⟨by rfl, by rfl⟩

/-- The words of 95_test_vectors.md P1 to P5. -/
theorem test_encode :
    encode (.vol .both) = 0x31 ∧ encode (.vol .left) = 0x11 ∧ encode (.fadein .both) = 0x32 ∧
    encode (.fadeout .both) = 0x33 ∧ encode (.resample .both) = 0x34 ∧ encode (.echo .both) = 0x35 := by
  decide

theorem test_decodeTableWord :
    decodeTableWord 32 0x31 = some (.vol .both) ∧ decodeTableWord 32 0x5 = some (.echo .reserved) ∧
    decodeTableWord 32 0x6 = none := by decide

/-! ### The commands: rows of 95_test_vectors.md, CMD write and commit -/

/-- V-VOL: the gain 2.0 saturates at both ends; COUNT and DELTA 0. -/
theorem test_vol_saturates :
    after (runs (.vol .left) (idle 0x00020000 0 [32767, -32768, 100, -200] [5])) (fun t =>
      t.mem.buf0 == samples [32767, -32768, 200, -400] && t.mem.buf1 == samples [5] &&
      t.count == 0 && t.delta == 0 && t.status.word == 0x2) = true := by decide
/-- V-VOL: the gain 0.5 truncates toward zero. -/
theorem test_vol_truncates :
    after (runs (.vol .right) (idle 0x00008000 0 [9] [3, -3, 1, -1, 32767, -32768])) (fun t =>
      t.mem.buf1 == samples [1, -1, 0, 0, 16383, -16384] && t.mem.buf0 == samples [9]) = true := by
  decide

/-- V-FADEIN: C = 4, n = 6. -/
theorem test_fadein_ramp :
    after (runs (.fadein .left) (idle 6 0 [1000, 1000, 1000, 1000, 1000, 1000] [])) (fun t =>
      t.mem.buf0 == samples [0, 62, 250, 562, 1000, 1000] && t.count == 4 && t.delta == 0) = true := by
  decide
/-- V-FADEIN: the time 0 is rejected, STATUS 0x44. -/
theorem test_fadein_zero_time : statusAfter 0x12 (idle 0 0 [1] [2]) 0x44 = true := by decide

/-- V-FADEOUT: C = 4, n = 6. -/
theorem test_fadeout_ramp :
    after (runs (.fadeout .left) (idle 6 0 [0, 62, 250, 562, 1000, 1000] [])) (fun t =>
      t.mem.buf0 == samples [0, 62, 250, 316, 250, 62] && t.count == 4 && t.delta == 0) = true := by
  decide
/-- E12: the start clamp, n = 2 < C = 4. -/
theorem test_fadeout_clamped :
    after (runs (.fadeout .right) (idle 6 0 [] [1000, -1000])) (fun t =>
      t.mem.buf1 == samples [250, -62]) = true := by decide

/-- V-RESAMPLE, first row, with the accumulator at the end of its trace. -/
theorem test_resample_1_5 :
    after (runs (.resample .left) (idle 0x00018000 0 [0, 1, 2, 3, 4, 5, 6] [])) (fun t =>
      t.mem.buf0 == samples [0, 1, 3, 4] && t.count == 4 && t.delta == 0xFFFFFFF4 && t.acc == 0x60000) =
      true := by decide
/-- V-DEC: RESAMPLE.l with n = 5 at 0.5 exceeds MAXLEN = 8, STATUS 0x94. -/
theorem test_resample_capacity : statusAfter 0x14 (idle 0x8000 0 [1, 2, 3, 4, 5] []) 0x94 = true := by
  decide

/-- E6: the scaled tail; the delay line and its pointer at the end of the trace. -/
theorem test_echo_tail :
    after (runs (.echo .left) (idle 3 0x8000 [100, 200, 300, 400] [7])) (fun t =>
      t.mem.buf0 == samples [100, 200, 350, 500, 150, 200] && t.mem.buf1 == samples [7] &&
      t.count == 2 && t.delta == 8 && t.dl == samples [0, 0] && t.wp == 0) = true := by decide
/-- V-DEC: DELAY_RANGE comes before CAPACITY; then CAPACITY alone. -/
theorem test_echo_room :
    (statusAfter 0x15 (idle 7 0x10000 [1, 2, 3, 4, 5] []) 0x84 &&
      statusAfter 0x15 (idle 6 0x10000 [1, 2, 3, 4, 5] []) 0x94) = true := by decide

/-! ### Flags, registers and the port -/

/-- V-DEC: step 3 comes before step 4, and LEN_MISMATCH is 0x74. -/
theorem test_check_order :
    (statusAfter 0x35 (idle 0 0x10000 [1, 2] [1, 2, 3]) 0x64 &&
      statusAfter 0x31 (idle 0x10000 0 [1, 2] [1, 2, 3]) 0x74) = true := by decide
/-- V-DEC: BAD_CMD and BAD_CHANNEL. -/
theorem test_bad_words :
    (statusAfter 0x16 (idle 0x10000 0 [1] [1]) 0x14 && statusAfter 0x06 (idle 0x10000 0 [1] [1]) 0x14 &&
      statusAfter 0x01 (idle 0x10000 0 [1] [1]) 0x24) = true := by decide
/-- V-LEN: a value above MAXLEN, with DONE kept: STATUS 0xA6. -/
theorem test_len_range :
    after (access (wrAt 0x14 9) { idle 0 0 [1, 2, 3] [] with status := ⟨false, true, false, false, 0⟩ })
      (fun t => t.status.word == 0xA6 && t.mem.buf0 == samples [1, 2, 3]) = true := by decide
/-- V-BUS: sample reads, bus errors, and the constant register. -/
theorem test_bus_reads :
    let s := idle 0 0 [-2, 5, 7] []
    (responds (rdAt 0x40000000) s (.data 0xFFFFFFFE) && responds (rdAt 0x4000000C) s (.data 0) &&
      responds (rdAt 0x40000020) s .busError && responds (rdAt 0x00000002) s .busError &&
      responds (rdAt 0x00000030) s .busError && responds (rdAt 0xC0000000) s .busError &&
      responds (rdAt 0x00000024) s (.data 0x0000AC44)) = true := by decide
/-- V-BUS: bits 31:16 of a sample write are ignored. -/
theorem test_bus_write :
    after (access (wrAt 0x40000004 0x0001FFFE) (idle 0 0 [-2, 5, 7] [])) (fun t =>
      t.mem.buf0 == samples [-2, -2, 7]) = true := by decide
/-- P3: IE with ERR raises irq, and the write of 0x4 to STATUS lowers it. -/
theorem test_irq :
    after (access (wrAt 0x08 1) { idle 0 0 [] [] with status := ⟨false, false, true, false, 3⟩ })
      (fun t => t.irq && after (access (wrAt 0x04 4) t) (fun u => !u.irq && u.status.word == 0)) = true := by
  decide
/-- V-K: the numeric kernel. -/
theorem test_kernel :
    (narrow 7 2 = 3 ∧ narrow (-7) 2 = -3 ∧ narrow (-65537) 65536 = -1 ∧ narrow (2 ^ 40) 1 = 32767) ∧
    (sampleCount 0x2000 = 5513 ∧ sampleCount 0x199A = 4410) ∧
    ((menv 1000 1 4).toInt = 62 ∧ (mix (-1) 3 0x8000).toInt = 0) := by decide
/-- 30_encoding.md R98: `fix(2.0)` and `fix(0.5)`; `fix(0)` is an assembly error. -/
theorem test_fix : fix 2 1 = some 0x20000 ∧ fix 1 2 = some 0x8000 ∧ fix 0 1 = none := by decide
/-- 95_test_vectors.md P1: the expansion of `load 1, [10, 20]`. -/
theorem test_load_expansion :
    (Form.load .right [10, 20]).ops =
      [.access (wrAt 0x18 2), .access (wrAt 0x80000000 10), .access (wrAt 0x80000004 20)] := by
  decide

/-! ### Witnesses: for every statement with hypotheses, states and operands that meet them -/

/-- An idle state with two samples on each side, gain 1.0 and attenuation 0.5. -/
def calm : State := idle 0x00010000 0x8000 [100, -200] [1, 2]
/-- The state after `VOL.lr` is accepted from `calm`. -/
def inFlight : State := busy (.vol .both) 0x00010000 0x8000 [100, -200] [1, 2]
/-- An idle state whose time is the shortest echo delay, one sample. -/
def shortEcho : State := idle 1 0x8000 [100, -200] [1, 2]
/-- A state held in reset. -/
def held : State := { State.resetWith small with rst := true }
/-- The latch of `inFlight`. -/
def volLatch : Pending := { op := .vol, chans := .both, p0 := 0x00010000, p1 := 0x8000, n := 2 }

theorem calm_inv : calm.Inv := ⟨by decide, by decide, by decide, by decide, by decide, by decide⟩
theorem inFlight_inv : inFlight.Inv := ⟨by decide, by decide, by decide, by decide, by decide, by decide⟩
theorem held_inv : held.Inv := ⟨by decide, by decide, by decide, by decide, by decide, by decide⟩
/-- The invariant says something: a buffer longer than MAXLEN does not meet it. -/
theorem inv_excludes : ¬(idle 0 0 [1, 2, 3, 4, 5, 6, 7, 8, 9] []).Inv := fun h => absurd h.mem (by decide)

/-- One word for each clause: bit 6, OP 0 and 6, CH 0, and the first and last legal word. -/
theorem witness_DecodeFollowsTheThreeChecks :
    (0x40#32).toNat / 64 ≠ 0 ∧
    ((0x30#32).toNat / 64 = 0 ∧ (0x30#32).toNat % 16 = 0) ∧ ((0x36#32).toNat / 64 = 0 ∧ 5 < (0x36#32).toNat % 16) ∧
    ((0x05#32).toNat / 64 = 0 ∧ 1 ≤ (0x05#32).toNat % 16 ∧ (0x05#32).toNat % 16 ≤ 5 ∧
      (0x05#32).toNat / 16 % 4 = 0) ∧
    ((0x11#32).toNat / 64 = 0 ∧ 1 ≤ (0x11#32).toNat % 16 ∧ (0x11#32).toNat % 16 ≤ 5 ∧
      (0x11#32).toNat / 16 % 4 ≠ 0) ∧
    ((0x35#32).toNat / 64 = 0 ∧ 1 ≤ (0x35#32).toNat % 16 ∧ (0x35#32).toNat % 16 ≤ 5 ∧
      (0x35#32).toNat / 16 % 4 ≠ 0) := by
  decide
theorem witness_DecodeAndEncodeAgree :
    decode 0x35 = .ok (.echo .both) ∧ Instr.wellFormed (.echo .both) = true ∧ encode (.echo .both) = 0x35 :=
  ⟨by rfl, by decide, by decide⟩
theorem witness_TableRowsAreReadAlone :
    decodeRow 0x05 = some (.echo .reserved) ∧ decodeRow 0x45 = none ∧ opcodeTable.length = 5 := by decide
theorem witness_NarrowIsTheSameInEitherOrder : (0 : Int) < 1 := by decide
theorem witness_CountOfATime :
    (1 : Word) ≠ 0#32 ∧ (1 : Word).toNat ≤ (0xFFFFFFFF : Word).toNat := by decide
theorem witness_EnvelopeNeverSaturates : 1 ≤ 1 ∧ 0 ≤ 1 ∧ 1 ≤ 4 ∧ 4 ≤ 4 := by decide
theorem witness_StatusReadLayout : inFlight.rst = false := by decide
theorem witness_StatusWriteClearsTheBitsWrittenOne : inFlight.rst = false := by decide
theorem witness_CtrlHoldsInterruptEnableAlone : inFlight.rst = false := by decide
theorem witness_ParamWritesStoreOrAreDropped :
    (calm.rst = false ∧ calm.status.busy = false) ∧ (inFlight.rst = false ∧ inFlight.status.busy = true) := by
  decide
/-- Busy; above MAXLEN by one; exactly MAXLEN; shorter, longer and equal lengths. -/
theorem witness_LenWriteResizesTheBuffer :
    (inFlight.rst = false ∧ inFlight.status.busy = true) ∧
    (calm.rst = false ∧ calm.status.busy = false ∧ (9 : Word).toNat > calm.cfg.maxLen) ∧
    ((8 : Word).toNat ≤ calm.cfg.maxLen ∧ (calm.mem.buf .left).length < (8 : Word).toNat) ∧
    ((0 : Word).toNat ≤ calm.cfg.maxLen ∧ (0 : Word).toNat ≤ (calm.mem.buf .left).length) ∧
    (2 : Word).toNat = (calm.mem.buf .right).length ∧ Chan.left ≠ Chan.right := by decide
theorem witness_ConstantRegistersIgnoreWrites : inFlight.rst = false := by decide
theorem witness_CmdLenCountDeltaReads : inFlight.rst = false := by decide
theorem witness_InterruptIsALevel :
    calm.rst = false ∧ (0x6#32).getLsbD 1 = true ∧ (0x6#32).getLsbD 2 = true ∧ calm.status.busy = false ∧
    after (exec (.vol .both) calm) (fun t => t.status.busy) = true := by decide
/-- The first and the last index of each clause. -/
theorem witness_SampleReadHasThreeCases :
    calm.rst = false ∧ (8 < 2 ^ 28 ∧ calm.cfg.maxLen ≤ 8) ∧ (0 < calm.cfg.maxLen ∧ 0 < (calm.mem.buf .left).length) ∧
    (1 < calm.cfg.maxLen ∧ 1 < (calm.mem.buf .left).length) ∧
    (2 < calm.cfg.maxLen ∧ (calm.mem.buf .left).length ≤ 2) ∧
    (7 < calm.cfg.maxLen ∧ (calm.mem.buf .right).length ≤ 7) ∧ calm.cfg.maxLen ≤ 2 ^ 28 - 1 := by decide
theorem witness_SampleWriteHasFourCases :
    calm.rst = false ∧ (8 < 2 ^ 28 ∧ calm.cfg.maxLen ≤ 8) ∧
    (inFlight.rst = false ∧ 7 < inFlight.cfg.maxLen ∧ inFlight.status.busy = true) ∧
    (calm.status.busy = false ∧ 2 < calm.cfg.maxLen ∧ (calm.mem.buf .left).length ≤ 2) ∧
    (1 < calm.cfg.maxLen ∧ 1 < (calm.mem.buf .left).length) ∧
    (0x40000004 < 2 ^ 32 ∧ base .left + 4 * 0 + 4 ≤ 0x40000004) ∧ 0x40000003 < base .left + 4 * 1 := by decide
/-- One access for each disjunct, at its boundary. -/
theorem witness_BusErrorChangesNothing :
    (AccessSize.two ≠ AccessSize.four) ∧ (rdAt 0x02).addr.toNat % 4 ≠ 0 ∧
    (0x30 ≤ (rdAt 0x30).addr.toNat ∧ (rdAt 0x30).addr.toNat < 0x40000000) ∧
    (0x30 ≤ (rdAt 0x3FFFFFFC).addr.toNat ∧ (rdAt 0x3FFFFFFC).addr.toNat < 0x40000000) ∧
    0xC0000000 ≤ (rdAt 0xC0000000).addr.toNat ∧
    (base .left ≤ (rdAt 0x40000020).addr.toNat ∧ (rdAt 0x40000020).addr.toNat < base .left + 2 ^ 30 ∧
      calm.cfg.maxLen ≤ ((rdAt 0x40000020).addr.toNat - base .left) / 4) ∧
    (base .right ≤ (rdAt 0xBFFFFFFC).addr.toNat ∧ (rdAt 0xBFFFFFFC).addr.toNat < base .right + 2 ^ 30 ∧
      calm.cfg.maxLen ≤ ((rdAt 0xBFFFFFFC).addr.toNat - base .right) / 4) := by decide
theorem witness_EveryOtherAccessIsAccepted :
    calm.rst = false ∧ (rdAt 0x2C).size = .four ∧ (rdAt 0x2C).addr.toNat % 4 = 0 ∧ (rdAt 0x2C).addr.toNat < 0x30 ∧
    (rdAt 0x2C).kind = .read ∧ (wrAt 0x8000001C 5).kind = .write 5 ∧ (wrAt 0x8000001C 5).addr.toNat % 4 = 0 ∧
    base .right ≤ (wrAt 0x8000001C 5).addr.toNat ∧ (wrAt 0x8000001C 5).addr.toNat < base .right + 2 ^ 30 ∧
    ((wrAt 0x8000001C 5).addr.toNat - base .right) / 4 < calm.cfg.maxLen := by decide
theorem witness_ReadsHaveNoSideEffect : (rdAt 0x04).kind = .read := by decide
/-- Dropped; rejected by each of the nine checks; accepted. -/
theorem witness_CmdWriteIsDroppedRejectedOrAccepted :
    inFlight.rst = false ∧ inFlight.status.busy = true ∧ calm.rst = false ∧ calm.status.busy = false ∧
    [firstFailure 0x46 calm, firstFailure 0x05 calm, firstFailure 0x11 (idle 0 1 [] []),
      firstFailure 0x13 (idle 0 1 [] []), firstFailure 0x14 (idle 0 1 [] []),
      firstFailure 0x15 (idle 1 0 [] []), firstFailure 0x31 (idle 1 1 [1] []),
      firstFailure 0x15 (idle 7 1 [] []), firstFailure 0x24 (idle 1 1 [] [1])] = [1, 2, 3, 4, 5, 6, 7, 8, 9] ∧
    firstFailure 0x31 calm = 0 ∧ firstFailure 0x35 shortEcho = 0 := by decide
theorem witness_ReservedBitsAreBadCmd :
    calm.status.busy = false ∧ calm.rst = false ∧ 6 ≤ 6 ∧ 6 < 32 ∧ (0x51#32).getLsbD 6 = true ∧
    6 ≤ 31 ∧ 31 < 32 ∧ (0x80000031#32).getLsbD 31 = true := by decide
theorem witness_ReservedChannelIsBadChannel :
    calm.status.busy = false ∧ (Instr.echo .reserved).ch = .reserved := by decide
theorem witness_CommandWhileBusyIsDropped : inFlight.status.busy = true := by decide
/-- Accepted; dropped with OVR set; rejected. -/
theorem witness_CmdWriteFrame :
    after (exec (.vol .both) calm) (fun t => t.status.busy && t.pend == some volLatch) = true ∧
    after (exec (.vol .both) inFlight) (fun t => t.status.ovr && t.pend == some volLatch) = true ∧
    after (exec (.vol .reserved) calm) (fun t => t.status.err && t.pend == none) = true := by decide

/-- The hypotheses of the completion statements of VOL, FADEIN and FADEOUT, for each channel set. -/
theorem witness_VolScalesAndCommits :
    Idle calm ∧ ChanSel.both ≠ .reserved ∧ calm.param0 ≠ 0#32 ∧ SameLength .both calm ∧ SameLength .left calm ∧
    selects .left .right = false ∧ selects .both .right = true :=
  ⟨⟨by decide, by decide⟩, by decide, by decide, fun _ => by decide, fun _ => by decide, by decide, by decide⟩
theorem witness_FadeinRampsUpAndCommits :
    Idle shortEcho ∧ ChanSel.both ≠ .reserved ∧ shortEcho.param0 ≠ 0#32 ∧ SameLength .both shortEcho ∧
    0 < countOf shortEcho.param0 ∧ countOf shortEcho.param0 ≤ 1 ∧ (shortEcho.mem.buf .left)[1]? = some (BitVec.ofInt 16 (-200)) :=
  ⟨⟨by decide, by decide⟩, by decide, by decide, fun _ => by decide, by decide, by decide, by decide⟩
theorem witness_FadeoutRampsDownAndCommits :
    Idle shortEcho ∧ ChanSel.right ≠ .reserved ∧ shortEcho.param0 ≠ 0#32 ∧ SameLength .right shortEcho ∧
    ((shortEcho.mem.buf .right).length : Int) - countOf shortEcho.param0 ≤ (1 : Nat) ∧
    ((0 : Nat) : Int) < (shortEcho.mem.buf .right).length - countOf shortEcho.param0 :=
  ⟨⟨by decide, by decide⟩, by decide, by decide, fun _ => by decide, by decide, by decide⟩
/-- The result has exactly MAXLEN samples. -/
theorem witness_ResampleSelectsAndCommits :
    let s := idle 0x4000 0 [1, 2] [3, 4]
    Idle s ∧ s.param0 ≠ 0#32 ∧ SameLength .both s ∧ commonLen s .both * 65536 / s.param0.toNat = s.cfg.maxLen ∧
    7 < (s.mem.buf .left).length * 65536 / s.param0.toNat :=
  ⟨⟨by decide, by decide⟩, by decide, fun _ => by decide, by decide, by decide⟩
/-- The delay is exactly DLMAX and the result exactly MAXLEN; and a delay longer than the clip. -/
theorem witness_EchoAddsTheTailAndCommits :
    let s := idle 6 1 [1, 2, 3, 4] [5, 6, 7, 8]
    let g := idle 6 1 [1] []
    (Idle s ∧ s.param0 ≠ 0#32 ∧ s.param1 ≠ 0#32 ∧ SameLength .both s ∧ countOf s.param0 = s.cfg.dlMax ∧
      commonLen s .both + countOf s.param0 = s.cfg.maxLen ∧ (s.mem.buf .left)[3]? = some 4 ∧
      3 < countOf s.param0 ∧ 3 < (s.mem.buf .left).length) ∧
    (Idle g ∧ countOf g.param0 ≤ g.cfg.dlMax ∧ commonLen g .left + countOf g.param0 ≤ g.cfg.maxLen ∧
      (g.mem.buf .left).length ≤ 3 ∧ 3 < countOf g.param0) :=
  ⟨⟨⟨by decide, by decide⟩, by decide, by decide, fun _ => by decide, by decide, by decide, by decide, by decide,
    by decide⟩, ⟨by decide, by decide⟩, by decide, by decide, by decide, by decide⟩

theorem witness_VolByOneIsTheIdentity :
    Idle calm ∧ ChanSel.left ≠ .reserved ∧ calm.param0 = 0x00010000 ∧ SameLength .left calm :=
  ⟨⟨by decide, by decide⟩, by decide, by decide, fun _ => by decide⟩
theorem witness_VolByAWholeGainIsExact :
    (∀ x ∈ samples [-32768, 32767], -32768 ≤ x.toInt * (1 : Nat) ∧ x.toInt * (1 : Nat) ≤ 32767) ∧
    (∀ x ∈ samples [0], -32768 ≤ x.toInt * (65535 : Nat) ∧ x.toInt * (65535 : Nat) ≤ 32767) := by
  constructor <;> simp [samples]
theorem witness_VolSaturates : (32767 : Sample) ∈ (volLane 0x00020000 (samples [32767])).out := by decide
theorem witness_FadeinStartsAtZero :
    (1 : Word) ≠ 0#32 ∧ (samples [5])[0]? = some 5 ∧ (samples [5]).length ≤ countOf 1 := by decide
/-- With the start clamped (C = 4 > n) and not (C = 1), at the last sample. -/
theorem witness_FadeoutRampIsTheSourceFormula :
    (samples [5, 6])[1]? = some 6 ∧ (6 : Word) ≠ 0#32 ∧ (1 : Word) ≠ 0#32 ∧
    max 0 (((samples [5, 6]).length : Int) - countOf 6) ≤ (0 : Nat) ∧
    max 0 (((samples [5, 6]).length : Int) - countOf 1) ≤ (1 : Nat) := by decide
theorem witness_FadesAreNotMirrorImages :
    (6 : Word) ≠ 0#32 ∧ (samples [5, 6]).length ≤ countOf 6 ∧ (samples [5, 6]).reverse[0]? = some 6 := by decide
theorem witness_ResampleNeverReadsPastTheEnd :
    (0xFFFFFFFF : Word) ≠ 0#32 ∧ (1 : Word) ≠ 0#32 ∧ 65535 < 1 * 65536 / (1 : Word).toNat ∧ 0 ≤ 1 := by decide
theorem witness_ResampleByTwoKeepsEvenSamples : 1 < (samples [5, 9, -7, 11]).length / 2 := by decide
theorem witness_PhaseAccumulatorComputesResample :
    (0x00018000 : Word) ≠ 0#32 ∧ (samples [0, 1, 2]).length ≤ 2 ^ 28 ∧
    2 ≤ (samples [0, 1, 2]).length * 65536 / (0x00018000 : Word).toNat := by decide
theorem witness_DelayLineComputesEcho :
    (3 : Word) ≠ 0#32 ∧ 4 ≤ (samples [1, 2]).length + countOf 3 ∧ countOf 3 ≤ 3 ∧
    3 < (samples [1, 2]).length + countOf 3 := by decide
/-- The four ranges, and the index past the end. -/
theorem witness_EchoPiecewise :
    ((3 : Word) ≠ 0#32 ∧ 0 < min (countOf 3) (samples [1, 2, 3]).length) ∧
    (countOf 3 ≤ 2 ∧ (samples [1, 2, 3])[2]? = some 3 ∧ (samples [1, 2, 3])[2 - countOf 3]? = some 1) ∧
    ((samples [1]).length ≤ 1 ∧ 1 < countOf 3) ∧
    (max (samples [1, 2, 3]).length (countOf 3) ≤ 3 ∧ (samples [1, 2, 3])[3 - countOf 3]? = some 2) ∧
    (samples [1, 2, 3]).length + countOf 3 ≤ 5 := by decide
theorem witness_LanesAreIndependent :
    volLatch.chans = .both ∧ inFlight.mem.buf0.length = volLatch.n ∧ inFlight.mem.buf1.length = volLatch.n := by
  decide
theorem witness_StepRunsTheDecodedCommand :
    let s := { calm with host := [.access (wrAt 0x00 0x31)] }
    (nextTurn s = .host ∧ s.rst = false ∧ s.host = .access (wrAt 0x00 0x31) :: [] ∧
      decode 0x31 = .ok (.vol .both)) ∧ decodeTableWord 32 0x35 = some (.echo .both) :=
  ⟨⟨by decide, by decide, by decide, by rfl⟩, by decide⟩
/-- The rising input while a command is in flight; the falling one; an access in reset. -/
theorem witness_ResetFromAnyState :
    ({ inFlight with sched := [.pin true] } : State).sched = .pin true :: [] ∧
    (held.rst = true ∧ ({ held with sched := [.pin false] } : State).sched = .pin false :: []) := by decide
theorem witness_InvariantHoldsAtReset :
    Config.Legal { maxLen := 1, dlMax := 1 } ∧ Config.largest.Legal := by decide
theorem witness_InvariantKeptByEveryStep : inFlight.Inv ∧ ∃ t, step inFlight = .next t :=
  ⟨inFlight_inv, _, rfl⟩
theorem witness_NoStepFails : inFlight.Inv := inFlight_inv
theorem witness_APendingCommandAlwaysCommits :
    inFlight.Inv ∧ inFlight.pend = some volLatch ∧ nextTurn inFlight = .engine ∧ selects .both .left = true :=
  ⟨inFlight_inv, by decide, by decide, by decide⟩
theorem witness_InFlightOnlyCommitOrResetEnds :
    inFlight.Inv ∧ inFlight.pend = some volLatch ∧ ∃ t, step inFlight = .next t :=
  ⟨inFlight_inv, by decide, _, rfl⟩
/-- A commit that writes COUNT. -/
theorem witness_OnlyCommitsWriteCountAndDelta :
    ∃ t, step (busy (.echo .both) 1 0x8000 [100, -200] [1, 2]) = .next t ∧
      t.count ≠ (busy (.echo .both) 1 0x8000 [100, -200] [1, 2]).count :=
  ⟨_, rfl, by decide⟩
/-- A STATUS write that clears OVR. -/
theorem witness_OvrIsSticky :
    let s := { calm with status := ⟨false, false, false, true, 0⟩, host := [.access (wrAt 0x04 8)] }
    ∃ t, step s = .next t ∧ s.status.ovr = true ∧ t.status.ovr = false :=
  ⟨_, rfl, by decide, by decide⟩
theorem witness_DeltaIsTheSignedByteDelta :
    inFlight.Inv ∧ inFlight.pend = some volLatch ∧ (∃ t, engineTurn inFlight = .next t) ∧
    selects volLatch.chans .left = true ∧ inFlight.rst = false :=
  ⟨inFlight_inv, by decide, ⟨_, rfl⟩, by decide, by decide⟩
/-- Two states that differ in the delay line and in the accumulator. -/
theorem witness_DatapathIsUnobservable :
    inFlight.SameButDatapath { inFlight with dl := [7], acc := 9 } ∧
    inFlight ≠ { inFlight with dl := [7], acc := 9 } := ⟨rfl, by decide⟩
theorem witness_BothOrdersOfCommitAndWrite :
    let s := { inFlight with host := [.access (wrAt 0x0C 0x8000)] }
    s.Inv ∧ s.pend = some volLatch ∧ s.rst = false ∧ s.host = [.access (wrAt 0x0C 0x8000)] :=
  ⟨⟨by decide, by decide, by decide, by decide, by decide, by decide⟩, by decide, by decide, by decide⟩
/-- A wait loop with a command in flight and the host scheduled first. -/
theorem witness_EveryWaitLoopEnds :
    let s := { inFlight with host := [.wait], sched := [.host, .host] }
    s.Inv ∧ s.rst = false ∧ s.NoResetScheduled ∧ s.host = .wait :: [] :=
  ⟨⟨by decide, by decide, by decide, by decide, by decide, by decide⟩, by decide,
    by simp [State.NoResetScheduled], by decide⟩
theorem witness_LoadStoresTheClip :
    calm.Inv ∧ Idle calm ∧ calm.sched = [] ∧ calm.host = [] ∧ [1, 2, 3, 4, 5, 6, 7, (8 : Int)].length ≤ calm.cfg.maxLen :=
  ⟨calm_inv, ⟨by decide, by decide⟩, by decide, by decide, by decide⟩
theorem witness_ShrinkThenGrowBringsZeros :
    Idle calm ∧ (1 : Word).toNat ≤ (calm.mem.buf .left).length ∧ (1 : Word).toNat ≤ (8 : Word).toNat ∧
    (8 : Word).toNat ≤ calm.cfg.maxLen := ⟨⟨by decide, by decide⟩, by decide, by decide, by decide⟩

end Sys2Proof.Tests
end

section
/-! SUPPORT. The invariant right after reset. -/

namespace Sys2Proof.Machine

/-- The reset STATUS is a legal value: no flag stands and ERRCODE is 0 (10_state.md R25). -/
theorem State.resetWith_status_legal (c : Config) : (State.resetWith c).status.Legal := by
  simp [Status.Legal]

/-- At reset nothing is latched and BUSY is low (10_state.md R41, 70_reset_and_hazards.md R240). -/
theorem State.resetWith_latchSound (c : Config) : (State.resetWith c).LatchSound := by
  simp [State.LatchSound]

/-- The empty delay line fits every build; its pointer 0 does because a legal DLMAX is at least 1
(10_state.md R7, R39). -/
theorem State.resetWith_datapathInRange {c : Config} (hc : c.Legal) :
    (State.resetWith c).DatapathInRange := by
  obtain ⟨-, -, hdl, -⟩ := hc
  exact ⟨Nat.zero_le _, hdl, Nat.zero_le _⟩

/-- The reset input is low in `resetWith`, so the clause about a held reset asks nothing. -/
theorem State.resetWith_heldInReset (c : Config) : (State.resetWith c).HeldInReset := by
  intro hrst
  simp at hrst

/-- Settles O47, one lemma per field of the invariant; only the configuration and the delay-line
pointer use that the build is legal. -/
theorem invariantHoldsAtReset : Obligations.InvariantHoldsAtReset := by
  intro c hc
  exact {
    cfg := hc
    mem := State.reset_mem_wf c
    status := State.resetWith_status_legal c
    latch := State.resetWith_latchSound c
    datapath := State.resetWith_datapathInRange hc
    reset := State.resetWith_heldInReset c }

end Sys2Proof.Machine
end

section
/-! SUPPORT. What a step can do, said once: the turns of the host and of the reset input, the commit's
guards and the fields it writes. -/

namespace Sys2Proof.Machine

/-- A step is one turn of the agent `nextTurn` names, and only the host's and the engine's turn can
answer anything but a next state. -/
theorem step_cases {s t : State} (h : step s = .next t) :
    (nextTurn s = .host ∧ hostTurn (s.setSched s.sched.tail) = .next t) ∨
    (nextTurn s = .engine ∧ engineTurn (s.setSched s.sched.tail) = .next t) ∨
    ∃ level, nextTurn s = .pin level ∧ t = pinTurn level (s.setSched s.sched.tail) := by
  rw [step_eq] at h
  cases hn : nextTurn s with
  | host => rw [hn] at h; exact .inl ⟨rfl, h⟩
  | engine => rw [hn] at h; exact .inr (.inl ⟨rfl, h⟩)
  | pin level => rw [hn] at h; cases h; exact .inr (.inr ⟨level, rfl, rfl⟩)

/-- A turn of the reset input resets the SAE, or finds the input low and leaves it low. -/
theorem pinTurn_cases (level : Bool) (s : State) :
    pinTurn level s = s ∨ pinTurn level s = s.toReset level := by
  unfold pinTurn
  split
  · exact .inr rfl
  · exact .inl rfl

/-- A turn of the host touches only its queue and the response, or is one accepted write. -/
theorem hostTurn_effect {s t : State} (h : hostTurn s = .next t) :
    (∃ l r, t = (s.setHost l).setResp r) ∨
    ∃ a rest x w, s.host = .access a :: rest ∧ s.rst = false ∧ a.kind = .write w ∧
      acceptedTarget (s.setHost rest) a = some x ∧
      writeTarget x w ((s.setHost rest).setResp (some .ack)) = .next t ∧
      WriteEffect ((s.setHost rest).setResp (some .ack)) t := by
  rcases hostTurn_cases s with e | ⟨a, rest, hh, e⟩ | ⟨rest, -, -, e⟩ | ⟨rest, -, -, e⟩
  · cases e.symm.trans h
    exact .inl ⟨s.host, s.resp, rfl⟩
  · rcases access_cases a (s.setHost rest) with ⟨r, e'⟩ | ⟨hr, x, w, u, hk, hx, e', hw, he⟩
    · cases (e.trans e').symm.trans h
      exact .inl ⟨rest, some r, rfl⟩
    · cases (e.trans e').symm.trans h
      exact .inr ⟨a, rest, x, w, hh, hr, hk, hx, hw, he⟩
  · cases e.symm.trans h
    exact .inl ⟨s.host, _, rfl⟩
  · cases e.symm.trans h
    exact .inl ⟨rest, _, rfl⟩

/-- What the commit's guard gives (60_exceptions.md R216): a channel is selected, every selected buffer
has the latched length, no divisor is 0, and the result fits. -/
theorem of_commitHazard_none {p : Pending} {s : State} (h : commitHazard p s = none) :
    p.chans ≠ .reserved ∧ (∀ c, selects p.chans c = true → (s.mem.buf c).length = p.n) ∧
    (p.op ≠ .vol → p.p0 ≠ 0#32) ∧ roomError s.cfg p.op p.p0 p.n = none := by
  unfold commitHazard at h
  split at h
  · cases h
  next hlatch =>
    split at h
    · cases h
    next hdiv =>
      simp only [not_or, not_and, not_not] at hlatch hdiv
      obtain ⟨hres, hleft, hright⟩ := hlatch
      refine ⟨hres, ?_, hdiv, ?_⟩
      · rintro (_ | _) hc
        · exact hleft hc
        · exact hright hc
      · cases hroom : roomError s.cfg p.op p.p0 p.n with
        | none => rfl
        | some e => rw [hroom] at h; cases e <;> cases h

/-- Where the result fits, a buffer within MAXLEN stays within MAXLEN (60_exceptions.md R213). -/
theorem newLen_le_of_room {c : Config} {op : Op} {p0 : Word} {n : Nat} (hn : n ≤ c.maxLen)
    (h : roomError c op p0 n = none) : newLen op p0 n ≤ c.maxLen := by
  cases op with
  | vol | fadein | fadeout => exact hn
  | resample => simpa [roomError] using h
  | echo =>
    simp only [roomError] at h
    split at h
    · cases h
    · simpa using h

/-- Where ECHO's result fits, its delay fits the delay line (60_exceptions.md R213 step 5). -/
theorem sampleCount_le_of_room {c : Config} {p0 : Word} {n : Nat} (h : roomError c .echo p0 n = none) :
    sampleCount p0 ≤ c.dlMax := by
  by_contra hgt
  simp [roomError, not_le.1 hgt] at h

/-- The buffer COUNT and DELTA are computed from is a selected one, so it has their common length. -/
theorem Memory.selected_length {m : Memory} {ch : ChanSel} {n : Nat} (hr : ch ≠ .reserved)
    (hl : ∀ c, selects ch c = true → (m.buf c).length = n) : (m.selected ch).length = n := by
  cases ch with
  | reserved => exact absurd rfl hr
  | left | both => exact hl .left rfl
  | right => exact hl .right rfl

/-- A lane runs over a buffer of the memory. -/
theorem Memory.exists_buf_of_mem_lanes {m : Memory} {ch : ChanSel} {b : List Sample} (h : b ∈ m.lanes ch) :
    ∃ c, b = m.buf c := by
  rcases List.mem_append.1 h with h | h <;> split at h
  · exact ⟨.left, List.mem_singleton.1 h⟩
  · cases h
  · exact ⟨.right, List.mem_singleton.1 h⟩
  · cases h

section applyCommit

variable (p : Pending) (s : State)

@[simp] theorem applyCommit_cfg : (applyCommit p s).cfg = s.cfg :=
  (congrArg State.cfg (applyCommit_eq p s)).trans (commitWith_cfg (laneOf p) p s)
@[simp] theorem applyCommit_status : (applyCommit p s).status = s.status.committed :=
  congrArg State.status (applyCommit_eq p s)
@[simp] theorem applyCommit_mem :
    (applyCommit p s).mem = s.mem.mapSelected p.chans fun b => (laneOf p b).out :=
  congrArg State.mem (applyCommit_eq p s)
@[simp] theorem applyCommit_delta : (applyCommit p s).delta =
    BitVec.ofInt 32 (4 * (((laneOf p (s.mem.selected p.chans)).out.length : Int) - p.n)) :=
  congrArg State.delta (applyCommit_eq p s)
@[simp] theorem applyCommit_pend : (applyCommit p s).pend = none :=
  congrArg State.pend (applyCommit_eq p s)
@[simp] theorem applyCommit_rst : (applyCommit p s).rst = s.rst :=
  (congrArg State.rst (applyCommit_eq p s)).trans (commitWith_rst (laneOf p) p s)

end applyCommit

/-- From a state of the invariant the engine's turn commits the pending command. -/
theorem State.Inv.engineTurn_of_pend {s : State} (h : s.Inv) {p : Pending} (hp : s.pend = some p) :
    engineTurn s = .next (applyCommit p s) := by
  simp [engineTurn, hp, h.rst_of_pend hp, commit_of_no_hazard (h.no_hazard hp)]

end Sys2Proof.Machine
end

section
/-! SUPPORT. Every step keeps the invariant, one lemma per agent; the engine's turn needs the bound of
the phase accumulator. -/

namespace Sys2Proof.Machine

/-- k samples add the speed to ACC k times, so ACC grows by k F at most (43_resample.md R172). -/
theorem phaseLoop_acc_le (f : Word) (b : List Sample) :
    ∀ k acc, (phaseLoop f b k acc).2.toNat ≤ acc.toNat + k * f.toNat := by
  intro k
  induction k with
  | zero => simp [phaseLoop]
  | succ k ih =>
    intro acc
    have hadd : (acc + f.setWidth 48).toNat ≤ acc.toNat + f.toNat := by
      have := f.isLt
      rw [BitVec.toNat_add, BitVec.toNat_setWidth]
      omega
    calc (phaseLoop f b (k + 1) acc).2.toNat
        ≤ (acc + f.setWidth 48).toNat + k * f.toNat := ih _
      _ ≤ acc.toNat + (k + 1) * f.toNat := by rw [Nat.succ_mul]; omega

/-- One lane leaves ACC at L' F, which is at most n 2^16 (43_resample.md R171, R172). -/
theorem resampleDatapath_acc_le (f : Word) (b : List Sample) :
    (resampleDatapath f b).2.toNat ≤ b.length * Config.one :=
  calc (resampleDatapath f b).2.toNat
      ≤ 0 + newLen .resample f b.length * f.toNat := phaseLoop_acc_le f b _ 0
    _ = b.length * Config.one / f.toNat * f.toNat := Nat.zero_add _
    _ ≤ b.length * Config.one := Nat.div_mul_le_self _ _

/-- After the lanes ACC is as it was or what the last lane left: 2^44 at most for buffers within the
largest MAXLEN (43_resample.md R172). -/
theorem accAfter_le (f : Word) :
    ∀ (bs : List (List Sample)) (acc : BitVec 48), (∀ b ∈ bs, b.length ≤ 0x10000000) →
      acc.toNat ≤ 0x100000000000 → (accAfter f bs acc).toNat ≤ 0x100000000000 := by
  intro bs
  induction bs with
  | nil => exact fun _ _ h => h
  | cons b bs ih =>
    intro acc hbs _
    have hb := hbs b List.mem_cons_self
    have hacc := resampleDatapath_acc_le f b
    rw [one_eq] at hacc
    exact ih _ (fun b' h' => hbs b' (List.mem_cons_of_mem b h')) (hacc.trans (by omega))

/-- A commit keeps the datapath in its storage: ECHO's delay fits the delay line, RESAMPLE's phase fits
ACC, and the other transforms use neither. -/
theorem applyCommit_datapathInRange {p : Pending} {s : State} (h : s.Inv) (hp : s.pend = some p) :
    (applyCommit p s).DatapathInRange := by
  obtain ⟨-, -, hp0, hroom⟩ := of_commitHazard_none (h.no_hazard hp)
  obtain ⟨hdl, hwp, hacc⟩ := h.datapath
  obtain ⟨op, ch, p0, p1, n⟩ := p
  cases op with
  | vol | fadein | fadeout => exact ⟨hdl, hwp, hacc⟩
  | resample =>
    refine ⟨hdl, hwp, accAfter_le p0 _ _ ?_ hacc⟩
    intro b hb
    obtain ⟨c, rfl⟩ := Memory.exists_buf_of_mem_lanes hb
    obtain ⟨-, hmax, -, -⟩ := h.cfg
    exact ((Memory.wf_iff _ _).1 h.mem c).trans hmax
  | echo =>
    obtain ⟨hdl', hwp'⟩ := delayLineAfter_bound p0 p1 (hp0 (by simp)) s.cfg.dlMax
      (sampleCount_le_of_room hroom) (s.mem.lanes ch) ⟨s.dl, s.wp⟩ hdl hwp
    exact ⟨hdl', hwp', hacc⟩

/-- Every buffer a commit writes has the length of R171 or R190, which the checks bounded. -/
theorem applyCommit_mem_wf {p : Pending} {s : State} (h : s.Inv) (hp : s.pend = some p) :
    (applyCommit p s).mem.wf s.cfg.maxLen = true := by
  obtain ⟨-, hlen, -, hroom⟩ := of_commitHazard_none (h.no_hazard hp)
  rw [applyCommit_mem]
  refine Memory.wf_mapSelected h.mem fun c hc => ?_
  have hn := hlen c hc
  have hbuf := (Memory.wf_iff _ _).1 h.mem c
  rw [laneOf_length, hn]
  exact newLen_le_of_room (hn ▸ hbuf) hroom

/-- The commit of a latched command keeps the invariant (60_exceptions.md R216, R217). -/
theorem applyCommit_keeps_inv {p : Pending} {s : State} (h : s.Inv) (hp : s.pend = some p) :
    (applyCommit p s).Inv := by
  obtain ⟨herr, hcode⟩ := h.no_error_of_pend hp
  exact {
    cfg := by simpa using h.cfg
    mem := by simpa using applyCommit_mem_wf h hp
    status := by simp [Status.Legal, herr, hcode]
    latch := by simp [State.LatchSound]
    datapath := applyCommit_datapathInRange h hp
    reset := by
      intro hr
      rw [applyCommit_rst, h.rst_of_pend hp] at hr
      cases hr }

theorem engineTurn_keeps_inv {s t : State} (h : s.Inv) (e : engineTurn s = .next t) : t.Inv := by
  rcases engineTurn_cases e with rfl | ⟨p, hp, -, -, rfl⟩
  · exact h
  · exact applyCommit_keeps_inv h hp

theorem hostTurn_keeps_inv {s t : State} (h : s.Inv) (e : hostTurn s = .next t) : t.Inv := by
  rcases hostTurn_effect e with ⟨l, r, rfl⟩ | ⟨a, rest, x, w, -, hr, -, -, -, he⟩
  · exact (h.setHost l).setResp r
  · exact he.keeps_inv ((h.setHost rest).setResp _) hr

/-- The state of a legal build in reset is one of the invariant, at either level of the input: its
device fields are those of `resetWith`. -/
theorem State.toReset_inv {s : State} (hc : s.cfg.Legal) (level : Bool) : (s.toReset level).Inv where
  cfg := hc
  mem := State.reset_mem_wf s.cfg
  status := State.resetWith_status_legal s.cfg
  latch := State.resetWith_latchSound s.cfg
  datapath := State.resetWith_datapathInRange hc
  reset := by
    intro hr
    obtain rfl : level = true := hr
    rfl

theorem pinTurn_keeps_inv {s : State} (h : s.Inv) (level : Bool) : (pinTurn level s).Inv := by
  rcases pinTurn_cases level s with e | e
  · rw [e]; exact h
  · rw [e]; exact State.toReset_inv h.cfg level

/-- Settles O48: each agent's turn keeps the invariant, and using up a scheduled turn does too. -/
theorem invariantKeptByEveryStep : Obligations.InvariantKeptByEveryStep := by
  intro s t h e
  have hs := h.setSched s.sched.tail
  rcases step_cases e with ⟨-, e⟩ | ⟨-, e⟩ | ⟨level, -, rfl⟩
  · exact hostTurn_keeps_inv hs e
  · exact engineTurn_keeps_inv hs e
  · exact pinTurn_keeps_inv hs level

end Sys2Proof.Machine
end

section
/-! SUPPORT. COUNT, DELTA and OVR along a step: who can write them, and the value a commit leaves in
DELTA. -/

namespace Sys2Proof.Machine

open Sys2Proof.Claims

/-- No write of the host reaches COUNT or DELTA (10_state.md R32, R33). -/
theorem WriteEffect.count_delta {s t : State} (h : WriteEffect s t) : t.count = s.count ∧ t.delta = s.delta := by
  cases h <;> exact ⟨rfl, rfl⟩

theorem hostTurn_count_delta {s t : State} (h : hostTurn s = .next t) :
    t.count = s.count ∧ t.delta = s.delta := by
  rcases hostTurn_effect h with ⟨l, r, rfl⟩ | ⟨a, rest, x, w, -, -, -, -, -, he⟩
  · exact ⟨rfl, rfl⟩
  · exact he.count_delta

/-- Settles O52: the host's turn keeps both registers, and the engine's turn without a pending command
changes nothing. -/
theorem onlyCommitsWriteCountAndDelta : Obligations.OnlyCommitsWriteCountAndDelta := by
  intro s t h hne
  have changed : ¬(t.count = s.count ∧ t.delta = s.delta) := not_and_or.2 hne
  rcases step_cases h with ⟨-, e⟩ | ⟨hn, e⟩ | ⟨level, hn, -⟩
  · exact absurd (hostTurn_count_delta e) changed
  · rcases engineTurn_cases e with rfl | ⟨p, hp, -, -, -⟩
    · exact absurd ⟨rfl, rfl⟩ changed
    · exact .inl ⟨hn, p, hp⟩
  · exact .inr ⟨level, hn⟩

/-- An aligned offset that addresses a register is that register's offset (10_state.md R23): the word
number picks the register, and the other regions hold none. -/
theorem eq_offset_of_target {a : Word} {r : Reg} (h4 : a.toNat % 4 = 0) (h : target a = .reg r) :
    a = r.offset := by
  have ha : a = BitVec.ofNat 32 (4 * (a.toNat / 4)) := by
    apply BitVec.eq_of_toNat_eq
    rw [BitVec.toNat_ofNat]
    omega
  unfold target at h
  split at h
  · generalize a.toNat / 4 = k at h ha
    unfold regAt at h
    split at h <;> cases h <;> exact ha
  · split_ifs at h

/-- An accepted access to a register has that register's offset and four bytes (20_memory.md R61). -/
theorem of_acceptedTarget_reg {s : State} {a : Access} {r : Reg} (h : acceptedTarget s a = some (.reg r)) :
    a.addr = r.offset ∧ a.size = .four := by
  unfold acceptedTarget at h
  split at h
  · cases h
  next hok =>
    simp only [not_or, ne_eq, not_not] at hok
    obtain ⟨-, hsize, halign⟩ := hok
    split at h
    · cases h
    · split at h <;> cases h
    next ht =>
      cases h
      exact ⟨eq_offset_of_target halign ht, hsize⟩

/-- Of the register writes only W1C of STATUS clears OVR (10_state.md R26, R43). -/
theorem writeReg_keeps_ovr {r : Reg} {w : Word} {s t : State} (hr : r ≠ .status)
    (h : writeReg r w s = .next t) (hs : s.status.ovr = true) : t.status.ovr = true := by
  cases r with
  | status => exact absurd rfl hr
  | cmd =>
    rcases writeCmd_cases h with ⟨-, rfl⟩ | ⟨-, e, rfl⟩ | ⟨-, i, -, -, rfl⟩
    · rfl
    · exact hs
    · exact hs
  | param0 | param1 =>
    cases h
    split
    · rfl
    · exact hs
  | len c =>
    cases h
    unfold writeLen
    split_ifs
    · rfl
    · exact hs
    · exact hs
  | ctrl | count | delta | srate | maxlen | dlmax => cases h; exact hs

theorem writeSample_keeps_ovr (c : Chan) (i : Nat) (w : Word) {s : State} (hs : s.status.ovr = true) :
    (writeSample c i w s).status.ovr = true := by
  unfold writeSample
  split
  · rfl
  · exact hs

/-- A write that lowers OVR is one of STATUS with bit 3 set (10_state.md R26). -/
theorem writeTarget_lowers_ovr {x : Target} {w : Word} {s t : State} (h : writeTarget x w s = .next t)
    (hs : s.status.ovr = true) (ht : t.status.ovr = false) : x = .reg .status ∧ w.getLsbD 3 = true := by
  cases x with
  | unmapped => cases h; simp [hs] at ht
  | sample c i => cases h; simp [writeSample_keeps_ovr c i w hs] at ht
  | reg r =>
    by_cases hr : r = .status
    · subst hr
      cases h
      exact ⟨rfl, by simpa [hs] using ht⟩
    · simp [writeReg_keeps_ovr hr h hs] at ht

/-- Settles O53: a commit keeps OVR, and of the host's turns only a write to STATUS lowers it; its
access is the aligned four-byte one at 0x04. -/
theorem ovrIsSticky : Obligations.OvrIsSticky := by
  intro s t h hs ht
  rcases step_cases h with ⟨hn, e⟩ | ⟨-, e⟩ | ⟨level, hn, -⟩
  · rcases hostTurn_effect e with ⟨l, r, rfl⟩ | ⟨⟨addr, size, kind⟩, rest, x, w, hh, -, hk, hx, hw, -⟩
    · simp [hs] at ht
    · obtain ⟨rfl, h3⟩ := writeTarget_lowers_ovr hw hs ht
      obtain ⟨haddr, hsize⟩ := of_acceptedTarget_reg hx
      obtain rfl : addr = Reg.status.offset := haddr
      obtain rfl : size = .four := hsize
      obtain rfl : kind = .write w := hk
      exact .inr ⟨hn, w, rest, hh, h3⟩
  · rcases engineTurn_cases e with rfl | ⟨p, -, -, -, rfl⟩
    · simp [hs] at ht
    · simp [hs] at ht
  · exact .inl ⟨level, hn⟩

/-- DELTA does not wrap: lengths within the largest MAXLEN keep four times their difference in range
(10_state.md R33). -/
theorem toInt_four_mul_sub {m n : Nat} (hm : m ≤ 0x10000000) (hn : n ≤ 0x10000000) :
    (BitVec.ofInt 32 (4 * ((m : Int) - n))).toInt = 4 * ((m : Int) - n) := by
  rw [BitVec.toInt_ofInt, Int.bmod_def]
  omega

/-- Settles O54: old and new length of a selected buffer are the latched n and the length the checks
bounded, both at most 2^28. -/
theorem deltaIsTheSignedByteDelta : Obligations.DeltaIsTheSignedByteDelta := by
  intro s t p c h hp e hc _
  cases (h.engineTurn_of_pend hp).symm.trans e
  obtain ⟨hres, hlen, -, hroom⟩ := of_commitHazard_none (h.no_hazard hp)
  obtain ⟨-, hmax, -, -⟩ := h.cfg
  have hold : p.n ≤ s.cfg.maxLen := hlen c hc ▸ (Memory.wf_iff _ _).1 h.mem c
  have hnew := newLen_le_of_room hold hroom
  have hdelta : (applyCommit p s).delta.toInt = 4 * ((newLen p.op p.p0 p.n : Int) - p.n) := by
    rw [applyCommit_delta, laneOf_length, Memory.selected_length hres hlen,
      toInt_four_mul_sub (hnew.trans hmax) (hold.trans hmax)]
  have hbuf : ((applyCommit p s).mem.buf c).length = newLen p.op p.p0 p.n := by
    rw [applyCommit_mem, Memory.mapSelected_buf, if_pos hc, laneOf_length, hlen c hc]
  refine ⟨by rw [hdelta, hbuf, hlen c hc], ?_⟩
  rw [hdelta, abs_le]
  omega

end Sys2Proof.Machine
end

section
/-! SUPPORT. The internal datapath reaches nothing else: steps of states that differ in DL, WP and ACC
alone, agent by agent. -/

namespace Sys2Proof.Machine

/-- Two outcomes that the host cannot tell apart: both are next states that differ in the datapath
alone, or both are the same stop. -/
inductive SameResult : Result → Result → Prop where
  | next {s t : State} (h : s.SameButDatapath t) : SameResult (.next s) (.next t)
  | fault (f : Fault) : SameResult (.fault f) (.fault f)
  | refused (r : Refusal) : SameResult (.refused r) (.refused r)

namespace State.SameButDatapath

/-- A state with another DL, WP and ACC put in differs from it in the datapath alone, and no state does
otherwise: with this the field equations of `setDl`, `setWp` and `setAcc` decide what a step sees. -/
theorem exists_eq {s t : State} (h : s.SameButDatapath t) :
    ∃ dl wp acc, t = ((s.setDl dl).setWp wp).setAcc acc :=
  ⟨t.dl, t.wp, t.acc, h⟩

theorem ite {c : Prop} [Decidable c] {s t s' t' : State} (h : s.SameButDatapath t)
    (h' : s'.SameButDatapath t') : (if c then s else s').SameButDatapath (if c then t else t') := by
  split
  · exact h
  · exact h'

variable {s t : State} (h : s.SameButDatapath t)
include h

theorem host_eq : t.host = s.host := by
  obtain ⟨dl, wp, acc, rfl⟩ := h.exists_eq
  rfl

theorem sched_eq : t.sched = s.sched := by
  obtain ⟨dl, wp, acc, rfl⟩ := h.exists_eq
  rfl

theorem pend_eq : t.pend = s.pend := by
  obtain ⟨dl, wp, acc, rfl⟩ := h.exists_eq
  rfl

theorem rst_eq : t.rst = s.rst := by
  obtain ⟨dl, wp, acc, rfl⟩ := h.exists_eq
  rfl

theorem setSched (l : List Turn) : (s.setSched l).SameButDatapath (t.setSched l) := by
  obtain ⟨dl, wp, acc, rfl⟩ := h.exists_eq
  rfl

theorem setHost (l : List HostOp) : (s.setHost l).SameButDatapath (t.setHost l) := by
  obtain ⟨dl, wp, acc, rfl⟩ := h.exists_eq
  rfl

theorem setResp (r : Option Response) : (s.setResp r).SameButDatapath (t.setResp r) := by
  obtain ⟨dl, wp, acc, rfl⟩ := h.exists_eq
  rfl

theorem issue (op : Op) (ch : ChanSel) :
    (Machine.issue op ch s).SameButDatapath (Machine.issue op ch t) := by
  obtain ⟨dl, wp, acc, rfl⟩ := h.exists_eq
  have hc : check op ch (((s.setDl dl).setWp wp).setAcc acc) = check op ch s := rfl
  unfold Machine.issue
  rw [hc]
  refine ite rfl ?_
  cases check op ch s with
  | none => rfl
  | some e => rfl

theorem rejectWord : (Machine.rejectWord s).SameButDatapath (Machine.rejectWord t) := by
  obtain ⟨dl, wp, acc, rfl⟩ := h.exists_eq
  exact ite rfl rfl

theorem writeReg (r : Reg) (w : Word) : SameResult (Machine.writeReg r w s) (Machine.writeReg r w t) := by
  cases r with
  | cmd =>
    simp only [Machine.writeReg, writeCmd_eq]
    cases decodeRow w with
    | none => exact .next h.rejectWord
    | some i => exact .next (h.issue i.op i.ch)
  | count | delta | srate | maxlen | dlmax => exact .next h
  | status | ctrl =>
    obtain ⟨dl, wp, acc, rfl⟩ := h.exists_eq
    exact .next rfl
  | param0 | param1 =>
    obtain ⟨dl, wp, acc, rfl⟩ := h.exists_eq
    exact .next (ite rfl rfl)
  | len c =>
    obtain ⟨dl, wp, acc, rfl⟩ := h.exists_eq
    exact .next (ite rfl (ite rfl rfl))

theorem writeTarget (x : Target) (w : Word) :
    SameResult (Machine.writeTarget x w s) (Machine.writeTarget x w t) := by
  cases x with
  | reg r => exact h.writeReg r w
  | unmapped => exact .next h
  | sample c i =>
    obtain ⟨dl, wp, acc, rfl⟩ := h.exists_eq
    exact .next (ite rfl rfl)

theorem acceptedTarget_eq (a : Access) : Machine.acceptedTarget t a = Machine.acceptedTarget s a := by
  obtain ⟨dl, wp, acc, rfl⟩ := h.exists_eq
  rfl

theorem readTarget_eq (x : Target) : Machine.readTarget t x = Machine.readTarget s x := by
  obtain ⟨dl, wp, acc, rfl⟩ := h.exists_eq
  rfl

theorem readResponse_eq (a : Access) : Machine.readResponse t a = Machine.readResponse s a := by
  simp only [Machine.readResponse, h.acceptedTarget_eq, h.readTarget_eq]

theorem access (a : Access) : SameResult (Machine.access a s) (Machine.access a t) := by
  unfold Machine.access
  rw [h.acceptedTarget_eq]
  cases Machine.acceptedTarget s a with
  | none => exact .next (h.setResp _)
  | some x =>
    cases a.kind with
    | read =>
      simp only [h.readTarget_eq]
      exact .next (h.setResp _)
    | write w => exact (h.setResp _).writeTarget x w

theorem hostTurn : SameResult (Machine.hostTurn s) (Machine.hostTurn t) := by
  unfold Machine.hostTurn
  rw [h.host_eq]
  cases s.host with
  | nil => exact .next h
  | cons o rest =>
    cases o with
    | access a => exact (h.setHost rest).access a
    | wait =>
      simp only [h.readResponse_eq]
      exact .next ((ite (h.setHost rest) h).setResp _)

theorem commit (p : Pending) : SameResult (Machine.commit p s) (Machine.commit p t) := by
  obtain ⟨dl, wp, acc, rfl⟩ := h.exists_eq
  have hz : commitHazard p (((s.setDl dl).setWp wp).setAcc acc) = commitHazard p s := rfl
  unfold Machine.commit
  rw [hz]
  cases commitHazard p s with
  | some f => exact .fault f
  | none =>
    refine .next ?_
    obtain ⟨op, ch, p0, p1, n⟩ := p
    cases op <;> rfl

theorem engineTurn : SameResult (Machine.engineTurn s) (Machine.engineTurn t) := by
  unfold Machine.engineTurn
  rw [h.pend_eq, h.rst_eq]
  cases s.pend with
  | none => exact .next h
  | some p =>
    cases s.rst with
    | true => exact .next h
    | false => exact h.commit p

theorem pinTurn (level : Bool) : (Machine.pinTurn level s).SameButDatapath (Machine.pinTurn level t) := by
  obtain ⟨dl, wp, acc, rfl⟩ := h.exists_eq
  exact ite rfl rfl

theorem nextTurn_eq : Machine.nextTurn t = Machine.nextTurn s := by
  simp only [Machine.nextTurn, h.sched_eq, h.pend_eq, h.rst_eq]

theorem step : SameResult (Machine.step s) (Machine.step t) := by
  rw [step_eq, step_eq, h.nextTurn_eq, h.sched_eq]
  have h' := h.setSched s.sched.tail
  cases Machine.nextTurn s with
  | host => exact h'.hostTurn
  | engine => exact h'.engineTurn
  | pin level => exact .next (h'.pinTurn level)

end State.SameButDatapath

/-- Settles O55: the outcomes of the two steps are alike, read off for each of the three outcomes. -/
theorem datapathIsUnobservable : Obligations.DatapathIsUnobservable := by
  intro s t h
  have hstep := h.step
  refine ⟨fun s' e => ?_, fun f e => ?_, fun r e => ?_⟩
  · rw [e] at hstep
    generalize step t = o at hstep ⊢
    cases hstep with
    | next h' => exact ⟨_, rfl, h'⟩
  · rw [e] at hstep
    generalize step t = o at hstep ⊢
    cases hstep
    rfl
  · rw [e] at hstep
    generalize step t = o at hstep ⊢
    cases hstep
    rfl

end Sys2Proof.Machine
end

section
/-! SUPPORT. The registers as the host reads and writes them: one access rule per register behaviour. -/

namespace Sys2Proof.Machine

open Sys2Proof.Claims

/-- With the reset input low an aligned read of LENc answers with the buffer's length (10_state.md R30). -/
theorem access_rdAt_len {s : State} (h : s.rst = false) (c : Chan) :
    access (rdAt (lenOffset c)) s =
      .next (s.setResp (some (.data (BitVec.ofNat 32 (s.mem.buf c).length)))) := by
  cases c
  · exact access_readReg h (.len .left)
  · exact access_readReg h (.len .right)

/-- With the reset input low an aligned write of LENc is acknowledged and does what R31 says. -/
theorem access_wrAt_len {s : State} (h : s.rst = false) (c : Chan) (v : Word) :
    access (wrAt (lenOffset c) v) s = .next (writeLen c v (s.setResp (some .ack))) := by
  cases c
  · exact access_writeReg h (.len .left) v
  · exact access_writeReg h (.len .right) v

/-- Busy: the write is dropped (10_state.md R31, R43). -/
theorem access_wrAt_len_busy {s : State} (h : s.rst = false) (hb : s.status.busy = true) (c : Chan)
    (v : Word) : access (wrAt (lenOffset c) v) s = .next (s.setResp (some .ack)).drop := by
  simp [access_wrAt_len h, writeLen, hb]

/-- Idle and above MAXLEN: the write is rejected (10_state.md R31). -/
theorem access_wrAt_len_above {s : State} (h : s.rst = false) (hb : s.status.busy = false) (c : Chan)
    {v : Word} (hv : v.toNat > s.cfg.maxLen) :
    access (wrAt (lenOffset c) v) s = .next ((s.setResp (some .ack)).report .lenRange) := by
  simp [access_wrAt_len h, writeLen, hb, hv]

/-- Idle and within MAXLEN: the write resizes the buffer (10_state.md R31). -/
theorem access_wrAt_len_resizes {s : State} (h : s.rst = false) (hb : s.status.busy = false) (c : Chan)
    {v : Word} (hv : v.toNat ≤ s.cfg.maxLen) :
    access (wrAt (lenOffset c) v) s =
      .next ((s.setResp (some .ack)).setMem (s.mem.set c (resize (s.mem.buf c) v.toNat))) := by
  simp [access_wrAt_len h, writeLen, hb, not_lt.2 hv]

theorem resize_shrink {b : List Sample} {v : Nat} (h : v ≤ b.length) : resize b v = b.take v :=
  if_pos h

theorem resize_grow {b : List Sample} {v : Nat} (h : b.length < v) :
    resize b v = b ++ List.replicate (v - b.length) 0 :=
  if_neg (not_le.2 h)

@[simp] theorem resize_self (b : List Sample) : resize b b.length = b := by
  rw [resize_shrink le_rfl, List.take_length]

/-- Settles O14, one access rule per clause; the buffers of the last are `resize` of the old one and the
untouched other. -/
theorem lenWriteResizesTheBuffer : Obligations.LenWriteResizesTheBuffer := by
  intro s c v hr
  refine ⟨fun hb => access_wrAt_len_busy hr hb c v, fun hb hv => access_wrAt_len_above hr hb c hv,
    fun hb hv => ⟨_, access_wrAt_len_resizes hr hb c hv, rfl, fun h => ?_, fun h => ?_, fun h => ?_, ?_,
      fun d hd => ?_⟩⟩
  · rw [State.setMem_mem, Memory.set_buf_same, resize_shrink h]
  · rw [State.setMem_mem, Memory.set_buf_same, resize_grow h]
  · rw [State.setMem_mem, h, resize_self, Memory.set_buf_self]
  · rw [State.setMem_mem, Memory.set_buf_same, resize_length]
  · rw [State.setMem_mem, Memory.set_buf_other _ hd]

/-- Settles O10: the read's word is `Status.word`, whose fields `Status.word_toNat` places. -/
theorem statusReadLayout : Obligations.StatusReadLayout :=
  fun s hr => ⟨s.status.word, access_readReg hr .status, s.status.word_toNat⟩

/-- `Status.clear` flag by flag: a one clears, a zero keeps (10_state.md R26). -/
theorem Status.clear_eq (x : Status) (w : Word) : x.clear w =
    { busy := x.busy
      done := if w.getLsbD 1 then false else x.done
      err := if w.getLsbD 2 then false else x.err
      ovr := if w.getLsbD 3 then false else x.ovr
      errcode := if w.getLsbD 2 then 0 else x.errcode } := by
  have flag : ∀ a b : Bool, (a && !b) = if b then false else a := by decide
  simp only [Status.clear, flag]

/-- Settles O11. -/
theorem statusWriteClearsTheBitsWrittenOne : Obligations.StatusWriteClearsTheBitsWrittenOne := by
  intro s w hr
  rw [← Status.clear_eq]
  exact access_writeReg hr .status w

/-- Settles O12: IE is the one bit a CTRL write stores, and `ctrlWord_eq` gives the word read. -/
theorem ctrlHoldsInterruptEnableAlone : Obligations.CtrlHoldsInterruptEnableAlone := by
  refine ⟨fun s w hr => ⟨access_writeReg hr .ctrl w, ?_⟩, fun c => rfl⟩
  rw [← Status.ctrlWord_eq]
  exact access_readReg hr .ctrl

/-- Settles O13: each register's write rule, in its idle and in its busy branch. -/
theorem paramWritesStoreOrAreDropped : Obligations.ParamWritesStoreOrAreDropped := by
  intro s w hr
  have write0 : access (wrAt 0x0C w) s = _ := access_writeReg hr .param0 w
  have write1 : access (wrAt 0x10 w) s = _ := access_writeReg hr .param1 w
  rw [write0, write1]
  refine ⟨fun hb => ?_, fun hb => ?_, access_readReg hr .param0, access_readReg hr .param1⟩
  · have hidle : ¬(s.setResp (some .ack)).status.busy = true := by simp [hb]
    exact ⟨congrArg _ (if_neg hidle), congrArg _ (if_neg hidle)⟩
  · exact ⟨congrArg _ (if_pos hb), congrArg _ (if_pos hb)⟩

/-- Settles O15; the rate is `Config.sampleRate`, the one `sampleCount` multiplies by. -/
theorem constantRegistersIgnoreWrites : Obligations.ConstantRegistersIgnoreWrites := fun _ w hr =>
  ⟨access_readReg hr .srate, access_readReg hr .maxlen, access_readReg hr .dlmax,
    access_writeReg hr .srate w, access_writeReg hr .maxlen w, access_writeReg hr .dlmax w,
    sampleCount_eq⟩

/-- Settles O16. -/
theorem cmdLenCountDeltaReads : Obligations.CmdLenCountDeltaReads := fun _ c w hr =>
  ⟨access_readReg hr .cmd, access_rdAt_len hr c, access_readReg hr .count, access_readReg hr .delta,
    access_writeReg hr .count w, access_writeReg hr .delta w⟩

theorem State.irq_iff (s : State) :
    s.irq = true ↔ s.ie = true ∧ (s.status.done = true ∨ s.status.err = true) := by
  simp [State.irq]

/-- With DONE and ERR low there is no interrupt, whatever IE is (10_state.md R42). -/
theorem State.irq_of_no_flag {s : State} (hd : s.status.done = false) (he : s.status.err = false) :
    s.irq = false := by
  simp [State.irq, hd, he]

/-- Settles O17: W1C of both bits and an acceptance leave DONE and ERR low. -/
theorem interruptIsALevel : Obligations.InterruptIsALevel := by
  refine ⟨State.irq_iff, fun c => rfl, fun s w hr h1 h2 => ?_, fun s t i hb e ht => ?_⟩
  · refine ⟨_, access_writeReg hr .status w, State.irq_of_no_flag ?_ ?_⟩
    · simp [h1]
    · simp [h2]
  · rw [exec_eq_issue] at e
    cases e
    rcases issue_cases i.op i.ch s with ⟨hb', -⟩ | ⟨-, x, -, e⟩ | ⟨-, -, e⟩
    · simp [hb] at hb'
    · simp [e, hb] at ht
    · rw [e]
      exact State.irq_of_no_flag rfl rfl

end Sys2Proof.Machine
end

section
/-! SUPPORT. The sample windows on the port: which sample an offset addresses, the access rules of R63
and R64, and what a store leaves unchanged, down to the byte view. -/

namespace Sys2Proof.Machine

open Sys2Proof.Claims

theorem base_eq_windowBase (c : Chan) : base c = windowBase c := by
  cases c <;> rfl

/-- An offset that addresses a sample is at or above its channel's window base, and its distance from the
base gives the index (20_memory.md R62, R70). -/
theorem window_of_target {a : Word} {c : Chan} {i : Nat} (h : target a = .sample c i) :
    windowBase c ≤ a.toNat ∧ i = (a.toNat - windowBase c) / 4 := by
  unfold target at h
  split_ifs at h with hreg hlow hleft hright
  · unfold regAt at h
    split at h <;> cases h
  · cases h
    exact ⟨not_lt.1 hlow, rfl⟩
  · cases h
    exact ⟨not_lt.1 hleft, rfl⟩

section acceptedTarget

variable {s : State} {a : Access} (hr : s.rst = false) (hs : a.size = .four) (h4 : a.addr.toNat % 4 = 0)
include hr hs h4

/-- An aligned four-byte access to a register is accepted (20_memory.md R61). -/
theorem acceptedTarget_of_reg {r : Reg} (ht : target a.addr = .reg r) :
    acceptedTarget s a = some (.reg r) := by
  simp [acceptedTarget, hr, hs, h4, ht]

/-- An aligned four-byte access to a sample is accepted exactly below MAXLEN (20_memory.md R63, R64). -/
theorem acceptedTarget_of_sample {c : Chan} {i : Nat} (ht : target a.addr = .sample c i) :
    acceptedTarget s a = if i < s.cfg.maxLen then some (.sample c i) else none := by
  simp [acceptedTarget, hr, hs, h4, ht]

end acceptedTarget

/-- An access the port does not accept gets a bus error (60_exceptions.md R214). -/
theorem access_busError {s : State} {a : Access} (h : acceptedTarget s a = none) :
    access a s = .next (s.setResp (some .busError)) := by
  simp [access, h]

/-- An accepted read answers with its target's word. -/
theorem access_read {s : State} {a : Access} {x : Target} (hk : a.kind = .read)
    (h : acceptedTarget s a = some x) : access a s = .next (s.setResp (some (.data (readTarget s x)))) := by
  simp [access, h, hk]

/-- An accepted write is acknowledged and does what its target's rule says. -/
theorem access_write {s : State} {a : Access} {x : Target} {w : Word} (hk : a.kind = .write w)
    (h : acceptedTarget s a = some x) : access a s = writeTarget x w (s.setResp (some .ack)) := by
  simp [access, h, hk]

/-- Busy: a sample write is dropped (20_memory.md R64). -/
theorem writeSample_busy {s : State} (hb : s.status.busy = true) (c : Chan) (i : Nat) (w : Word) :
    writeSample c i w s = s.drop :=
  if_pos hb

/-- Idle: a sample write stores (20_memory.md R64). -/
theorem writeSample_idle {s : State} (hb : s.status.busy = false) (c : Chan) (i : Nat) (w : Word) :
    writeSample c i w s = s.setMem (s.mem.set c (storeSample (s.mem.buf c) i w)) :=
  if_neg (by simp [hb])

/-- Idle, at or beyond the length: nothing changes (20_memory.md R64). -/
theorem writeSample_ignored {s : State} (hb : s.status.busy = false) {c : Chan} {i : Nat}
    (h : (s.mem.buf c).length ≤ i) (w : Word) : writeSample c i w s = s := by
  rw [writeSample_idle hb, storeSample_of_le h, Memory.set_buf_self]
  rfl

section sampleAccess

variable {s : State} (hr : s.rst = false) (c : Chan) {i : Nat} (hi : i < 2 ^ 28)
include hr hi

/-- Where the port accepts an access to sample i of channel c. -/
theorem acceptedTarget_sampleOffset (k : AccessKind) :
    acceptedTarget s { addr := BitVec.ofNat 32 (base c + 4 * i), size := .four, kind := k } =
      if i < s.cfg.maxLen then some (.sample c i) else none := by
  rw [base_eq_windowBase]
  have h4 : (BitVec.ofNat 32 (windowBase c + 4 * i)).toNat % 4 = 0 := by
    rw [windowOffset_toNat c hi]
    cases c
    · rw [windowBase_left]; omega
    · rw [windowBase_right]; omega
  exact acceptedTarget_of_sample hr rfl h4 (target_sample c hi)

theorem access_rdAt_sample_beyond (h : s.cfg.maxLen ≤ i) :
    access (rdAt (base c + 4 * i)) s = .next (s.setResp (some .busError)) :=
  access_busError ((acceptedTarget_sampleOffset hr c hi _).trans (if_neg (not_lt.2 h)))

theorem access_rdAt_sample (h : i < s.cfg.maxLen) :
    access (rdAt (base c + 4 * i)) s =
      .next (s.setResp (some (.data (sampleWord (s.mem.buf c) i)))) :=
  access_read rfl ((acceptedTarget_sampleOffset hr c hi _).trans (if_pos h))

theorem access_wrAt_sample_beyond (h : s.cfg.maxLen ≤ i) (w : Word) :
    access (wrAt (base c + 4 * i) w) s = .next (s.setResp (some .busError)) :=
  access_busError ((acceptedTarget_sampleOffset hr c hi _).trans (if_neg (not_lt.2 h)))

theorem access_wrAt_sample (h : i < s.cfg.maxLen) (w : Word) :
    access (wrAt (base c + 4 * i) w) s = .next (writeSample c i w (s.setResp (some .ack))) :=
  access_write rfl ((acceptedTarget_sampleOffset hr c hi _).trans (if_pos h))

theorem access_wrAt_sample_busy (h : i < s.cfg.maxLen) (hb : s.status.busy = true) (w : Word) :
    access (wrAt (base c + 4 * i) w) s = .next (s.setResp (some .ack)).drop := by
  simp [access_wrAt_sample hr c hi h, writeSample_busy, hb]

theorem access_wrAt_sample_ignored (h : i < s.cfg.maxLen) (hb : s.status.busy = false)
    (hl : (s.mem.buf c).length ≤ i) (w : Word) :
    access (wrAt (base c + 4 * i) w) s = .next (s.setResp (some .ack)) := by
  rw [access_wrAt_sample hr c hi h, writeSample_ignored (s := s.setResp (some .ack)) hb hl]

theorem access_wrAt_sample_stores (h : i < s.cfg.maxLen) (hb : s.status.busy = false) (w : Word) :
    access (wrAt (base c + 4 * i) w) s =
      .next ((s.setResp (some .ack)).setMem (s.mem.set c (storeSample (s.mem.buf c) i w))) := by
  simp [access_wrAt_sample hr c hi h, writeSample_idle, hb]

end sampleAccess

theorem sampleWord_of_lt {b : List Sample} {i : Nat} (h : i < b.length) :
    sampleWord b i = b[i].signExtend 32 := by
  simp [sampleWord, h]

theorem sampleWord_of_le {b : List Sample} {i : Nat} (h : b.length ≤ i) : sampleWord b i = 0 := by
  simp [sampleWord, h]

/-- Settles O18: the offset is the sample's, and `sampleWord` has one rule on each side of the length. -/
theorem sampleReadHasThreeCases : Obligations.SampleReadHasThreeCases := by
  intro s c i hr hi
  refine ⟨access_rdAt_sample_beyond hr c hi, fun hm h => ?_, fun hm h => ?_⟩
  · rw [access_rdAt_sample hr c hi hm, sampleWord_of_lt h]
    rfl
  · rw [access_rdAt_sample hr c hi hm, sampleWord_of_le h]
    rfl

/-- The sample stored is bits 15:0 of the word (20_memory.md R64). -/
theorem storeSample_getElem?_same {b : List Sample} {i : Nat} (h : i < b.length) (w : Word) :
    (storeSample b i w)[i]? = some (w.extractLsb' 0 16) := by
  rw [← BitVec.setWidth_eq_extractLsb' (by decide)]
  exact List.getElem?_set_self h

/-- A store keeps the length of both buffers. -/
theorem Memory.set_storeSample_length (m : Memory) (c d : Chan) (i : Nat) (w : Word) :
    ((m.set c (storeSample (m.buf c) i w)).buf d).length = (m.buf d).length := by
  by_cases hd : d = c
  · subst hd
    rw [set_buf_same, storeSample_length]
  · rw [set_buf_other m hd]

/-- A store keeps every other sample of both buffers. -/
theorem Memory.set_storeSample_getElem?_other (m : Memory) {c d : Chan} {i j : Nat} (w : Word)
    (h : ¬(d = c ∧ j = i)) :
    ((m.set c (storeSample (m.buf c) i w)).buf d)[j]? = (m.buf d)[j]? := by
  by_cases hd : d = c
  · subst hd
    rw [set_buf_same]
    exact List.getElem?_set_ne fun hij => h ⟨rfl, hij.symm⟩
  · rw [set_buf_other m hd]

theorem sampleWord_congr {b b' : List Sample} {i : Nat} (h : b[i]? = b'[i]?) :
    sampleWord b i = sampleWord b' i := by
  simp only [sampleWord, h]

/-- The byte view reads MAXLEN and the one sample its word addresses, nothing else of the state. -/
theorem memByte_congr {s t : State} {a : Nat} (hc : t.cfg = s.cfg)
    (h : ∀ d j, target (BitVec.ofNat 32 (a - a % 4)) = .sample d j →
      (t.mem.buf d)[j]? = (s.mem.buf d)[j]?) : memByte t a = memByte s a := by
  unfold memByte
  cases hx : target (BitVec.ofNat 32 (a - a % 4)) with
  | sample d j => simp only [hc, sampleWord_congr (h d j hx)]
  | reg r => rfl
  | unmapped => rfl

/-- A byte whose word addresses sample i of channel c is one of the four at the sample's offset
(20_memory.md R62, R67). -/
theorem byte_in_word_of_target {a : Nat} (ha : a < 2 ^ 32) {c : Chan} {i : Nat}
    (h : target (BitVec.ofNat 32 (a - a % 4)) = .sample c i) :
    windowBase c + 4 * i ≤ a ∧ a < windowBase c + 4 * i + 4 := by
  obtain ⟨hlow, hidx⟩ := window_of_target h
  rw [BitVec.toNat_ofNat, Nat.mod_eq_of_lt (by omega)] at hlow hidx
  cases c
  · rw [windowBase_left] at *; omega
  · rw [windowBase_right] at *; omega

/-- Settles O19, one access rule per case; in the last a byte outside the word addresses another sample
or none, and the store keeps every other sample. -/
theorem sampleWriteHasFourCases : Obligations.SampleWriteHasFourCases := by
  intro s c i w hr hi
  refine ⟨fun hm => access_wrAt_sample_beyond hr c hi hm w,
    fun hm hb => access_wrAt_sample_busy hr c hi hm hb w,
    fun hm hb h => access_wrAt_sample_ignored hr c hi hm hb h w, fun hm hb h => ?_⟩
  have hother : ∀ d j, ¬(d = c ∧ j = i) →
      ((s.mem.set c (storeSample (s.mem.buf c) i w)).buf d)[j]? = (s.mem.buf d)[j]? :=
    fun d j => s.mem.set_storeSample_getElem?_other w
  refine ⟨_, access_wrAt_sample_stores hr c hi hm hb w, rfl, ?_,
    fun d => s.mem.set_storeSample_length c d i w, hother, fun a ha hout => ?_⟩
  · rw [State.setMem_mem, Memory.set_buf_same, storeSample_getElem?_same h]
  · refine memByte_congr rfl fun d j hx => hother d j ?_
    rintro ⟨rfl, rfl⟩
    have hin := byte_in_word_of_target ha hx
    rw [base_eq_windowBase] at hout
    omega

/-- Every aligned four-byte access to a register, or to a sample below MAXLEN, is accepted
(20_memory.md R61). -/
theorem acceptedTarget_isSome {s : State} {a : Access} (hr : s.rst = false) (hs : a.size = .four)
    (h4 : a.addr.toNat % 4 = 0)
    (h : a.addr.toNat < 0x30 ∨ ∃ c, base c ≤ a.addr.toNat ∧ a.addr.toNat < base c + 2 ^ 30 ∧
      (a.addr.toNat - base c) / 4 < s.cfg.maxLen) : ∃ x, acceptedTarget s a = some x := by
  rcases h with h | ⟨c, hlow, hhigh, hm⟩
  · obtain ⟨r, ht⟩ := target_register h
    exact ⟨_, acceptedTarget_of_reg hr hs h4 ht⟩
  · rw [base_eq_windowBase] at hlow hhigh hm
    exact ⟨_, (acceptedTarget_of_sample hr hs h4 (target_of_window hlow hhigh)).trans (if_pos hm)⟩

/-- No effect of a write touches the port's response. -/
theorem WriteEffect.resp {s t : State} (h : WriteEffect s t) : t.resp = s.resp := by
  cases h <;> rfl

/-- Settles O21: the access is accepted, and a write's effect keeps the acknowledgement. -/
theorem everyOtherAccessIsAccepted : Obligations.EveryOtherAccessIsAccepted := by
  intro s a hr hs h4 h
  obtain ⟨x, hx⟩ := acceptedTarget_isSome hr hs h4 h
  refine ⟨fun hk => ⟨_, access_read hk hx⟩, fun w hk => ?_⟩
  obtain ⟨t, ht, he⟩ := writeTarget_effect x w (s.setResp (some .ack))
  exact ⟨t, (access_write hk hx).trans ht, he.resp⟩

/-- Settles O22: of the two things an access can do, the one beyond a response is a write. -/
theorem readsHaveNoSideEffect : Obligations.ReadsHaveNoSideEffect := by
  intro s a hk
  rcases access_cases a s with h | ⟨-, x, w, t, hw, -⟩
  · exact h
  · cases hk.symm.trans hw

end Sys2Proof.Machine
end

section
/-! SUPPORT. A command in flight: what the host's turn leaves as it was while BUSY is high. -/

namespace Sys2Proof.Machine

/-- What the host can read of a command in flight, and the command's operands, are the same in `t` as
in `s` (20_memory.md R66, R75). -/
structure State.SameInFlight (s t : State) : Prop where
  cfg : t.cfg = s.cfg
  pend : t.pend = s.pend
  busy : t.status.busy = s.status.busy
  mem : t.mem = s.mem
  count : t.count = s.count
  delta : t.delta = s.delta
  param0 : t.param0 = s.param0
  param1 : t.param1 = s.param1

theorem State.SameInFlight.trans {s t u : State} (h : s.SameInFlight t) (h' : t.SameInFlight u) :
    s.SameInFlight u where
  cfg := h'.cfg.trans h.cfg
  pend := h'.pend.trans h.pend
  busy := h'.busy.trans h.busy
  mem := h'.mem.trans h.mem
  count := h'.count.trans h.count
  delta := h'.delta.trans h.delta
  param0 := h'.param0.trans h.param0
  param1 := h'.param1.trans h.param1

/-- The host's queue and the response are not the command's. -/
theorem State.sameInFlight_host_resp (s : State) (l : List HostOp) (r : Option Response) :
    s.SameInFlight ((s.setHost l).setResp r) :=
  ⟨rfl, rfl, rfl, rfl, rfl, rfl, rfl, rfl⟩

theorem State.sameInFlight_setSched (s : State) (l : List Turn) : s.SameInFlight (s.setSched l) :=
  ⟨rfl, rfl, rfl, rfl, rfl, rfl, rfl, rfl⟩

theorem State.SameInFlight.memByte_eq {s t : State} (h : s.SameInFlight t) (a : Nat) :
    memByte t a = memByte s a :=
  memByte_congr h.cfg fun d j _ => by rw [h.mem]

/-- While busy a write is ignored, dropped, clears flags or sets IE: every other effect needs BUSY low
(20_memory.md R66, R75). -/
theorem WriteEffect.sameInFlight {s t : State} (h : WriteEffect s t) (hb : s.status.busy = true) :
    s.SameInFlight t := by
  cases h with
  | nothing | dropped | cleared | ie => exact ⟨rfl, rfl, rfl, rfl, rfl, rfl, rfl, rfl⟩
  | reported h | accepted h | param0 h | param1 h | lenRejected h | resized h | stored h =>
    simp [hb] at h

theorem hostTurn_sameInFlight {s t : State} (h : hostTurn s = .next t) (hb : s.status.busy = true) :
    s.SameInFlight t := by
  rcases hostTurn_effect h with ⟨l, r, rfl⟩ | ⟨a, rest, x, w, -, -, -, -, -, he⟩
  · exact s.sameInFlight_host_resp l r
  · exact (s.sameInFlight_host_resp rest _).trans (he.sameInFlight hb)

/-- With the reset input low, driving it low does nothing. -/
theorem pinTurn_low {s : State} (h : s.rst = false) : pinTurn false s = s := by
  simp [pinTurn, h]

/-- Everything a step can do while a command is in flight: the host's turn keeps what R66 and R75 say, the
engine's turn is the commit, and the reset input, low until then, stays low or rises. -/
theorem step_cases_of_pend {s t : State} {p : Pending} (hinv : s.Inv) (hp : s.pend = some p)
    (h : step s = .next t) :
    s.SameInFlight t ∨
    (nextTurn s = .engine ∧ t = applyCommit p (s.setSched s.sched.tail)) ∨
    (nextTurn s = .pin true ∧ t = (s.setSched s.sched.tail).toReset true) := by
  have hinv' := hinv.setSched s.sched.tail
  have used := s.sameInFlight_setSched s.sched.tail
  rcases step_cases h with ⟨-, e⟩ | ⟨hn, e⟩ | ⟨level, hn, rfl⟩
  · exact .inl (used.trans (hostTurn_sameInFlight e (hinv'.busy_of_pend hp)))
  · cases (hinv'.engineTurn_of_pend hp).symm.trans e
    exact .inr (.inl ⟨hn, rfl⟩)
  · cases level with
    | false =>
      rw [pinTurn_low (hinv'.rst_of_pend hp)]
      exact .inl used
    | true => exact .inr (.inr ⟨hn, rfl⟩)

/-- Settles O51, case by case of `step_cases_of_pend`. -/
theorem inFlightOnlyCommitOrResetEnds : Obligations.InFlightOnlyCommitOrResetEnds := by
  intro s t p hinv hp h
  rcases step_cases_of_pend hinv hp h with k | ⟨hn, rfl⟩ | ⟨hn, rfl⟩
  · exact .inl ⟨k.pend.trans hp, k.busy.trans (hinv.busy_of_pend hp), k.mem, k.count, k.delta, k.param0,
      k.param1, k.memByte_eq⟩
  · exact .inr (.inl ⟨hn, by simp⟩)
  · exact .inr (.inr ⟨hn, rfl, rfl, rfl, rfl⟩)

end Sys2Proof.Machine
end

section
/-! SUPPORT. Command words: what `decodeRow` and `decode` answer, in terms of the word's fields and of the
encoder, and which row of the opcode table covers a word. -/

namespace Sys2Proof

open Sys2Proof.Claims

theorem chCode_chanSelOf : ∀ c : BitVec 2, chCode (chanSelOf c) = c := by decide

/-- The command read from a word has the word's OP and CH numbers, and the word's RSV is 0
(30_encoding.md R90 to R92). -/
theorem fields_of_decodeRow {w : Word} {i : Instr} (h : decodeRow w = some i) :
    w.toNat / 64 = 0 ∧ (opCode i.op).toNat = w.toNat % 16 ∧ (chCode i.ch).toNat = w.toNat / 16 % 4 := by
  have hch : (chCode (chanSelOf (chField w))).toNat = w.toNat / 16 % 4 := by
    rw [chCode_chanSelOf, chField_toNat]
  unfold decodeRow at h
  split_ifs at h with hrsv
  rw [not_ne_iff, rsvField_eq_zero_iff] at hrsv
  rw [opField_toNat] at h
  split at h
  case h_6 => cases h
  all_goals
    rename_i hop
    cases h
    exact ⟨hrsv, hop.symm, hch⟩

/-- No command is read exactly where RSV is not 0 or OP is not in 1 to 5 (30_encoding.md R91, R93). -/
theorem decodeRow_eq_none_iff (w : Word) :
    decodeRow w = none ↔ w.toNat / 64 ≠ 0 ∨ w.toNat % 16 = 0 ∨ 5 < w.toNat % 16 := by
  unfold decodeRow
  split_ifs with hrsv
  · rw [Ne, rsvField_eq_zero_iff] at hrsv
    simp [hrsv]
  · rw [not_ne_iff, rsvField_eq_zero_iff] at hrsv
    rw [opField_toNat]
    split
    case h_6 h1 h2 h3 h4 h5 =>
      rw [imp_false] at h1 h2 h3 h4 h5
      exact iff_of_true rfl (by omega)
    all_goals exact iff_of_false nofun (by omega)

/-- `decodeRow` inverts `encode`, with a reserved CH too. -/
theorem decodeRow_eq_some_iff (w : Word) (i : Instr) : decodeRow w = some i ↔ encode i = w := by
  constructor
  · intro h
    obtain ⟨hrsv, hop, hch⟩ := fields_of_decodeRow h
    apply BitVec.eq_of_toNat_eq
    rw [encode_toNat, hop, hch]
    omega
  · rintro rfl
    cases i <;> rename_i c <;> cases c <;> rfl

theorem Instr.wellFormed_iff (i : Instr) : i.wellFormed = true ↔ (chCode i.ch).toNat ≠ 0 := by
  rw [Instr.wellFormed]
  generalize i.ch = c
  cases c <;> decide

/-- The first two checks of R96 are `decodeRow`'s, and they fail with BAD_CMD. -/
theorem decode_of_decodeRow_none {w : Word} (h : decodeRow w = none) : decode w = .error .badCmd := by
  simp [decode, h]

/-- The third check of R96 is that the command read is well-formed. -/
theorem decode_of_decodeRow_some {w : Word} {i : Instr} (h : decodeRow w = some i) :
    decode w = if i.wellFormed then .ok i else .error .badChannel := by
  simp [decode, h]

/-- A word decodes to a command exactly when it encodes it and the command is well-formed. -/
theorem decode_eq_ok_iff (w : Word) (i : Instr) :
    decode w = .ok i ↔ i.wellFormed = true ∧ encode i = w := by
  constructor
  · intro h
    cases hd : decodeRow w with
    | none => rw [decode_of_decodeRow_none hd] at h; cases h
    | some j =>
      rw [decode_of_decodeRow_some hd] at h
      split_ifs at h with hwf
      cases h
      exact ⟨hwf, (decodeRow_eq_some_iff w i).1 hd⟩
  · rintro ⟨hwf, he⟩
    rw [decode_of_decodeRow_some ((decodeRow_eq_some_iff w i).2 he), if_pos hwf]

/-- Settles O3. -/
theorem decodeAndEncodeAgree : Obligations.DecodeAndEncodeAgree := decode_eq_ok_iff

/-- Settles O1: each word is the encoding of its well-formed command. -/
theorem legalWordsDecodeToTheirCommands : Obligations.LegalWordsDecodeToTheirCommands := by
  unfold Obligations.LegalWordsDecodeToTheirCommands
  simp only [decode_eq_ok_iff]
  decide

/-- Settles O2: the first two clauses are the words of no row, the other two the words of a row, told apart
by the number of CH. -/
theorem decodeFollowsTheThreeChecks : Obligations.DecodeFollowsTheThreeChecks := by
  intro w
  have row (hrsv : w.toNat / 64 = 0) (h1 : 1 ≤ w.toNat % 16) (h5 : w.toNat % 16 ≤ 5) :
      ∃ i, decodeRow w = some i := by
    rw [← Option.ne_none_iff_exists', Ne, decodeRow_eq_none_iff]
    omega
  refine ⟨fun h => ?_, fun _ h => ?_, fun hrsv h1 h5 hch => ?_, fun hrsv h1 h5 hch => ?_⟩
  · exact decode_of_decodeRow_none ((decodeRow_eq_none_iff w).2 (.inl h))
  · exact decode_of_decodeRow_none ((decodeRow_eq_none_iff w).2 (.inr h))
  · obtain ⟨i, hi⟩ := row hrsv h1 h5
    obtain ⟨-, -, hc⟩ := fields_of_decodeRow hi
    rw [decode_of_decodeRow_some hi, if_neg]
    rw [Instr.wellFormed_iff, hc]
    exact not_not.2 hch
  · obtain ⟨i, hi⟩ := row hrsv h1 h5
    obtain ⟨-, ho, hc⟩ := fields_of_decodeRow hi
    refine ⟨i, ?_, ho, hc⟩
    rw [decode_of_decodeRow_some hi, if_pos]
    rw [Instr.wellFormed_iff, hc]
    exact hch

/-- The encodings of the well-formed commands are the words of 30_encoding.md section 4. -/
theorem encode_mem_legalWords {i : Instr} (h : i.wellFormed = true) : encode i ∈ legalWords := by
  revert h
  cases i <;> rename_i c <;> cases c <;> decide

/-- Settles O4, by what `decodeRow` answers: a word of no row is BAD_CMD, a word of a row is its command's
encoding, or BAD_CHANNEL. -/
theorem everyOtherWordIsRejected : Obligations.EveryOtherWordIsRejected := by
  intro w
  cases hd : decodeRow w with
  | none => exact .inr (.inl (decode_of_decodeRow_none hd))
  | some i =>
    by_cases hwf : i.wellFormed = true
    · rw [← (decodeRow_eq_some_iff w i).1 hd]
      exact .inl (encode_mem_legalWords hwf)
    · rw [decode_of_decodeRow_some hd, if_neg hwf]
      exact .inr (.inr rfl)

/-- A word from its three fields (30_encoding.md R90). -/
theorem fields_append (w : Word) : (rsvField w ++ chField w ++ opField w : BitVec 32) = w := by
  apply BitVec.eq_of_toNat_eq
  refine (append_toNat (rsvField w ++ chField w) (opField w)).trans ?_
  rw [append_toNat, rsvField_toNat, chField_toNat, opField_toNat]
  omega

/-- The mask of every row keeps RSV and OP, and clears CH (30_encoding.md R99). -/
theorem and_rowMask (w : Word) :
    w &&& 0xFFFFFFCF#32 = (rsvField w ++ 0#2 ++ opField w : BitVec 32) := by
  have mask : 0xFFFFFFCF#32 = (BitVec.allOnes 26 ++ 0#2 ++ BitVec.allOnes 4 : BitVec 32) := rfl
  conv_lhs => rw [← fields_append w, mask]
  refine BitVec.and_append.trans ?_
  rw [BitVec.and_append, BitVec.and_allOnes, BitVec.and_allOnes, BitVec.and_zero]

/-- Every row has the mask that leaves CH open, and an OP in 1 to 5 as its pattern (30_encoding.md R91, R99). -/
theorem row_mask_pattern : ∀ r ∈ opcodeTable,
    r.mask = 0xFFFFFFCF#32 ∧ 1 ≤ r.pattern.toNat ∧ r.pattern.toNat ≤ 5 := by decide

/-- A row covers the words with RSV = 0 and the OP of its pattern. -/
theorem OpcodeRow.covers_iff {r : OpcodeRow} (hr : r ∈ opcodeTable) (w : Word) :
    r.covers w = true ↔ w.toNat / 64 = 0 ∧ w.toNat % 16 = r.pattern.toNat := by
  obtain ⟨hmask, -, h5⟩ := row_mask_pattern r hr
  have hnat : (rsvField w ++ 0#2 ++ opField w : BitVec 32).toNat = w.toNat / 64 * 64 + w.toNat % 16 := by
    refine (append_toNat (rsvField w ++ 0#2) (opField w)).trans ?_
    rw [append_toNat, rsvField_toNat, opField_toNat, BitVec.toNat_ofNat]
    omega
  rw [OpcodeRow.covers, hmask, and_rowMask, beq_iff_eq, ← BitVec.toNat_inj, hnat]
  omega

/-- A row's pattern is its transform's OP number. -/
theorem pattern_eq_opCode_iff {r : OpcodeRow} (hr : r ∈ opcodeTable) (op : Op) :
    (opCode op).toNat = r.pattern.toNat ↔ r.mnemonic = op.mnemonic := by
  revert r
  cases op <;> decide

/-- Every transform has a row. -/
theorem exists_row (op : Op) : ∃ r ∈ opcodeTable, r.mnemonic = op.mnemonic := by
  cases op <;> decide

/-- The rows that cover a word are exactly those of the command read from it. -/
theorem covers_iff_of_decodeRow {w : Word} {i : Instr} (h : decodeRow w = some i) {r : OpcodeRow}
    (hr : r ∈ opcodeTable) : r.covers w = true ↔ r.mnemonic = i.op.mnemonic := by
  obtain ⟨hrsv, hop, -⟩ := fields_of_decodeRow h
  rw [OpcodeRow.covers_iff hr, ← pattern_eq_opCode_iff hr, hop]
  exact and_iff_right hrsv

/-- Settles O5: a covered word has RSV = 0 and a pattern's OP, which is in 1 to 5; and a word with a
command is covered by that command's row. -/
theorem tableRowsAreReadAlone : Obligations.TableRowsAreReadAlone := by
  refine fun w => ⟨fun i h r hr => covers_iff_of_decodeRow h hr, fun h r hr => ?_, fun h => ?_⟩
  · rw [decodeRow_eq_none_iff] at h
    rw [← Bool.not_eq_true, OpcodeRow.covers_iff hr]
    obtain ⟨-, h1, h5⟩ := row_mask_pattern r hr
    omega
  · by_contra hd
    obtain ⟨i, hi⟩ := Option.ne_none_iff_exists'.1 hd
    obtain ⟨r, hr, hm⟩ := exists_row i.op
    have hc := (covers_iff_of_decodeRow hi hr).2 hm
    rw [h r hr] at hc
    cases hc

end Sys2Proof
end

section
/-! SUPPORT. The two rejections of a CMD write that do not depend on the parameters: BAD_CMD and
BAD_CHANNEL. -/

namespace Sys2Proof.Machine

open Sys2Proof.Claims

/-- While not busy the error report of a CMD write leaves ERR, its code, and OVR as it was
(60_exceptions.md R210, R211). -/
theorem Status.issued_raise_eq {s : State} (hb : s.status.busy = false) (e : ErrCode) :
    s.status.issued.raise e = rejectedStatus s (errNumber e) := by
  simp [Status.issued, Status.raise, rejectedStatus, hb]

theorem rejectWord_idle {s : State} (hb : s.status.busy = false) :
    rejectWord s = s.setStatus (rejectedStatus s 1) := by
  rcases rejectWord_cases s with ⟨hb', -⟩ | ⟨-, h⟩
  · simp [hb] at hb'
  · rw [h, Status.issued_raise_eq hb, errNumber]

/-- A set bit of RSV makes RSV nonzero (30_encoding.md R90, R93). -/
theorem rsv_ne_zero_of_bit {w : Word} {k : Nat} (hk : 6 ≤ k) (h : w.getLsbD k = true) :
    w.toNat / 64 ≠ 0 := by
  have hbit : 2 ^ k ≤ w.toNat := Nat.ge_two_pow_of_testBit h
  have hpow : 2 ^ 6 ≤ 2 ^ k := Nat.pow_le_pow_right (by decide) hk
  omega

/-- Settles O24: such a word is of no row, and a CMD write of a word of no row is `rejectWord`. -/
theorem reservedBitsAreBadCmd : Obligations.ReservedBitsAreBadCmd := by
  intro s w k ⟨hb, hr⟩ hk _ hbit
  have hrow : decodeRow w = none := (decodeRow_eq_none_iff w).2 (.inl (rsv_ne_zero_of_bit hk hbit))
  refine ⟨decode_of_decodeRow_none hrow, ?_⟩
  have hwrite : access (wrAt 0x00 w) s = writeCmd w (s.setResp (some .ack)) :=
    access_writeReg hr .cmd w
  rw [hwrite, writeCmd_eq, hrow]
  exact congrArg _ (rejectWord_idle hb)

/-- Settles O25: the check of CH comes before every check of the parameters. -/
theorem reservedChannelIsBadChannel : Obligations.ReservedChannelIsBadChannel := by
  intro s i hb hch
  have hcheck : check i.op i.ch s = some .badChannel := if_pos hch
  rw [exec_eq_issue, issue_rejected hb hcheck, Status.issued_raise_eq hb]
  rfl

end Sys2Proof.Machine
end

section
/-! SUPPORT. Loading a clip: the host's queue run access by access in an idle machine. -/

namespace Sys2Proof.Machine

open Sys2Proof.Claims

/-- A second write of a buffer hides the first. -/
@[simp] theorem Memory.set_set (m : Memory) (c : Chan) (b b' : List Sample) :
    (m.set c b).set c b' = m.set c b' := by
  cases c <;> rfl

/-- With no turn scheduled and no command pending, a step is the host's next access (log 2). -/
theorem step_of_host_access {s : State} (hsched : s.sched = []) (hpend : s.pend = none) {a : Access}
    {rest : List HostOp} (hhost : s.host = .access a :: rest) : step s = access a (s.setHost rest) := by
  have hnext : nextTurn s = .host := by simp [nextTurn, hsched, hpend]
  have hs : s.setSched s.sched.tail = s := by
    rw [hsched, List.tail_nil, ← hsched]
    rfl
  rw [step_eq, hnext, hs, takeTurn, hostTurn, hhost]

theorem wrOp_len (c : Chan) (v : Word) : wrOp (.reg (.len c)) v = .access (wrAt (lenOffset c) v) := by
  cases c <;> rfl

theorem wrOp_sample (c : Chan) (i : Nat) (w : Word) :
    wrOp (.sample c i) w = .access (wrAt (base c + 4 * i) w) := by
  rw [base_eq_windowBase]
  rfl

/-- The state in the midst of a load: the buffer of c so far, and the accesses still to do. -/
def State.loading (s : State) (c : Chan) (b : List Sample) (ops : List HostOp) : State :=
  ((s.setMem (s.mem.set c b)).setHost ops).setResp (some .ack)

/-- The sample writes of `load` from index i on (30_encoding.md R98). -/
def sampleWrites (c : Chan) (i : Nat) (xs : List Int) : List HostOp :=
  xs.mapIdx fun j x => wrOp (.sample c (i + j)) ((BitVec.ofInt 16 x).setWidth 32)

theorem sampleWrites_cons (c : Chan) (i : Nat) (x : Int) (xs : List Int) :
    sampleWrites c i (x :: xs) =
      wrOp (.sample c i) ((BitVec.ofInt 16 x).setWidth 32) :: sampleWrites c (i + 1) xs := by
  simp [sampleWrites, List.mapIdx_cons, Nat.add_assoc, Nat.add_comm 1]

theorem load_ops (c : Chan) (xs : List Int) :
    Form.ops (.load c xs) =
      wrOp (.reg (.len c)) (BitVec.ofNat 32 xs.length) :: sampleWrites c 0 xs := by
  simp [Form.ops, sampleWrites]

/-- Storing at index i extends by one the part of the buffer already loaded. -/
theorem take_storeSample {b : List Sample} {i : Nat} (h : i < b.length) (x : Sample) :
    (storeSample b i (x.setWidth 32)).take (i + 1) = b.take i ++ [x] := by
  have hx : (x.setWidth 32).setWidth 16 = x := by simp
  rw [storeSample, hx, List.take_add_one, List.take_set_of_le le_rfl, List.getElem?_set_self h]
  rfl

section load

variable {s : State} (hidle : Idle s) (hsched : s.sched = []) (hpend : s.pend = none) (c : Chan)
include hidle hsched hpend

/-- The LEN write of a load resizes the buffer (10_state.md R31). -/
theorem step_load_len {v : Word} (hv : v.toNat ≤ s.cfg.maxLen) {ops : List HostOp}
    (hhost : s.host = wrOp (.reg (.len c)) v :: ops) :
    step s = .next (s.loading c (resize (s.mem.buf c) v.toNat) ops) := by
  obtain ⟨hb, hr⟩ := hidle
  rw [wrOp_len] at hhost
  rw [step_of_host_access hsched hpend hhost]
  exact access_wrAt_len_resizes (s := s.setHost ops) hr hb c hv

/-- A sample write of a load stores one sample (20_memory.md R64). -/
theorem step_load_sample {i : Nat} (hi : i < s.cfg.maxLen) (hcap : s.cfg.maxLen ≤ 2 ^ 28)
    (b : List Sample) (w : Word) (ops : List HostOp) :
    step (s.loading c b (wrOp (.sample c i) w :: ops)) = .next (s.loading c (storeSample b i w) ops) := by
  obtain ⟨hb, hr⟩ := hidle
  have hstep : step (s.loading c b (wrOp (.sample c i) w :: ops)) =
      access (wrAt (base c + 4 * i) w) (s.loading c b ops) := by
    rw [wrOp_sample]
    exact step_of_host_access (s := s.loading c b _) hsched hpend rfl
  rw [hstep, access_wrAt_sample_stores (s := s.loading c b ops) hr c (hi.trans_le hcap) hi hb]
  simp only [State.loading, State.setHost_mem, State.setResp_mem, State.setMem_mem, Memory.set_set,
    Memory.set_buf_same]
  rfl

/-- The sample writes from index i on fill the rest of the buffer, by induction on the samples. -/
theorem run_sampleWrites (hcap : s.cfg.maxLen ≤ 2 ^ 28) (xs : List Int) :
    ∀ (i : Nat) (b : List Sample), b.length = i + xs.length → b.length ≤ s.cfg.maxLen →
      core.run xs.length (s.loading c b (sampleWrites c i xs)) =
        .next (s.loading c (b.take i ++ xs.map (BitVec.ofInt 16)) []) := by
  induction xs with
  | nil =>
    intro i b hlen _
    rw [List.take_of_length_le (by simp [hlen]), List.map_nil, List.append_nil]
    rfl
  | cons x xs ih =>
    intro i b hlen hmax
    rw [List.length_cons] at hlen
    have hi : i < b.length := by omega
    rw [sampleWrites_cons, List.length_cons,
      core_run_succ _ _ _ (step_load_sample hidle hsched hpend c (hi.trans_le hmax) hcap b _ _),
      ih (i + 1) _ (by rw [storeSample_length]; omega) (by rwa [storeSample_length]),
      take_storeSample hi, List.append_assoc, List.singleton_append, List.map_cons]

end load

/-- Settles O58: the LEN write makes room for exactly the samples, and their writes fill it. -/
theorem loadStoresTheClip : Obligations.LoadStoresTheClip := by
  intro s c xs hinv hidle hsched hhost hfit
  obtain ⟨-, hcap, -, -⟩ := hinv.cfg
  have hpend := hinv.pend_of_idle hidle.1
  have hlen : (BitVec.ofNat 32 xs.length).toNat = xs.length := by
    rw [BitVec.toNat_ofNat]
    omega
  have hprog : (s.withProgram [.load c xs]).host =
      wrOp (.reg (.len c)) (BitVec.ofNat 32 xs.length) :: sampleWrites c 0 xs := by
    simp [State.withProgram, hhost, assemble, load_ops]
  have hstep := step_load_len (s := s.withProgram [.load c xs]) hidle hsched hpend c
    (hlen.trans_le hfit) hprog
  have hrun := run_sampleWrites (s := s.withProgram [.load c xs]) hidle hsched hpend c hcap xs 0
    (resize (s.mem.buf c) xs.length) (by simp) (by rw [resize_length]; exact hfit)
  rw [hlen] at hstep
  rw [core_run_succ _ _ _ hstep]
  refine ⟨_, hrun, Memory.set_buf_same .., fun d hd => Memory.set_buf_other _ hd _, ?_⟩
  rw [State.loading, ← hhost]
  rfl

end Sys2Proof.Machine
end

section
/-! SUPPORT. Narrowing against bounds: a truncated quotient obeys the bounds of the exact one, so saturation
may come before or after truncation, and the envelope never meets it. -/

namespace Sys2Proof.Machine

section tdiv

variable {a b q : Int} (hb : 0 < b)
include hb

/-- Truncation keeps an integer lower bound of the exact quotient. -/
theorem le_tdiv_of_mul_le (h : q * b ≤ a) : q ≤ a.tdiv b :=
  calc q = (q * b).tdiv b := (Int.mul_tdiv_cancel q hb.ne').symm
    _ ≤ a.tdiv b := Int.tdiv_le_tdiv hb h

/-- Truncation keeps an integer upper bound of the exact quotient. -/
theorem tdiv_le_of_le_mul (h : a ≤ q * b) : a.tdiv b ≤ q :=
  calc a.tdiv b ≤ (q * b).tdiv b := Int.tdiv_le_tdiv hb h
    _ = q := Int.mul_tdiv_cancel q hb.ne'

/-- Truncation keeps an integer bound of the exact quotient's size. -/
theorem abs_tdiv_le_of_abs_le_mul (h : |a| ≤ q * b) : |a.tdiv b| ≤ q := by
  obtain ⟨hlow, hhigh⟩ := abs_le.1 h
  exact abs_le.2 ⟨le_tdiv_of_mul_le hb (by rwa [neg_mul]), tdiv_le_of_le_mul hb hhigh⟩

end tdiv

/-- Saturating the exact value a/b and then truncating it gives `narrow` (40_datapath.md R112). -/
theorem narrow_eq_saturate_first (a : Int) {b : Int} (hb : 0 < b) :
    narrow a b = if a > 32767 * b then 32767 else if a < -32768 * b then -32768 else a.tdiv b := by
  rw [narrow_eq a b hb]
  split_ifs with hhigh hlow
  · have := le_tdiv_of_mul_le hb hhigh.le
    omega
  · have := tdiv_le_of_le_mul hb hlow.le
    omega
  · have := tdiv_le_of_le_mul hb (not_lt.1 hhigh)
    have := le_tdiv_of_mul_le hb (not_lt.1 hlow)
    omega

/-- Settles O6: one lemma for each order; the corner cases are evaluated. -/
theorem narrowIsTheSameInEitherOrder : Obligations.NarrowIsTheSameInEitherOrder :=
  ⟨fun a b hb => ⟨narrow_eq a b hb, narrow_eq_saturate_first a hb⟩, by decide⟩

/-- A longer time never gives a smaller count (40_datapath.md R113). -/
theorem sampleCount_mono {p q : Word} (h : p.toNat ≤ q.toNat) : sampleCount p ≤ sampleCount q := by
  rw [sampleCount_eq, sampleCount_eq]
  omega

/-- Settles O7: one lemma per property; the listed values are evaluated. -/
theorem countOfATime : Obligations.CountOfATime :=
  ⟨sampleCount_eq, fun _ => sampleCount_pos, fun _ _ => sampleCount_mono, rfl, sampleCount_lt, by decide⟩

section menv

variable (x : Sample) {k c : Nat} (hc : 1 ≤ c) (hk : k ≤ c)
include hc hk

/-- The ramp's gain is at most 1, so the exact envelope product is no larger than the sample. -/
theorem abs_envelope_le : |(x.toInt * k * k).tdiv (c * c)| ≤ |x.toInt| := by
  refine abs_tdiv_le_of_abs_le_mul (by positivity) ?_
  calc |x.toInt * k * k| = |x.toInt| * (k * k) := by
        rw [abs_mul, abs_mul, Nat.abs_cast, mul_assoc]
    _ ≤ |x.toInt| * (c * c) := by gcongr

/-- The exact envelope product, truncated, is in the sample range. -/
theorem envelope_range : -32768 ≤ (x.toInt * k * k).tdiv (c * c) ∧
    (x.toInt * k * k).tdiv (c * c) ≤ 32767 := by
  obtain ⟨hlow, hhigh⟩ := sample_range x
  have hsq : (k * k : Int) ≤ c * c := by gcongr
  have hsq0 : (0 : Int) ≤ k * k := by positivity
  rw [mul_assoc]
  constructor
  · refine le_tdiv_of_mul_le (by positivity) ?_
    calc (-32768 * (c * c) : Int) ≤ -32768 * (k * k) := by omega
      _ ≤ x.toInt * (k * k) := by gcongr
  · refine tdiv_le_of_le_mul (by positivity) ?_
    calc x.toInt * (k * k) ≤ 32767 * (k * k) := by gcongr
      _ ≤ 32767 * (c * c) := by gcongr

/-- The envelope multiplier is the exact quotient, truncated: saturation never changes it
(40_datapath.md R115). -/
theorem menv_toInt : (menv x k c).toInt = (x.toInt * k * k).tdiv (c * c) := by
  obtain ⟨hlow, hhigh⟩ := envelope_range x hc hk
  rw [menv, narrow, trunc0_eq_tdiv _ _ (by positivity), sat16_of_range hlow hhigh,
    toInt_sampleOf hlow hhigh]

end menv

/-- Settles O8; the ends of the ramp are the quotients of 0 and of x C C. -/
theorem envelopeNeverSaturates : Obligations.EnvelopeNeverSaturates := by
  intro x k c hc hk
  refine ⟨menv_toInt x hc hk, ?_, BitVec.eq_of_toInt_eq ?_, BitVec.eq_of_toInt_eq ?_⟩
  · rw [menv_toInt x hc hk]
    exact abs_envelope_le x hc hk
  · rw [menv_toInt x hc (Nat.zero_le c)]
    simp
  · rw [menv_toInt x hc le_rfl, mul_assoc]
    exact Int.mul_tdiv_cancel _ (by positivity)

/-- A sample is at most 2^15 in size (10_state.md R38). -/
theorem abs_sample_le (x : Sample) : |x.toInt| ≤ 2 ^ 15 := by
  obtain ⟨hlow, hhigh⟩ := sample_range x
  exact abs_le.2 ⟨by omega, by omega⟩

/-- The echo sum needs 49 signed bits at most (40_datapath.md R116). -/
theorem abs_mixSum_lt (x t : Sample) (v : Word) :
    |x.toInt * 65536 + t.toInt * v.toNat| < 2 ^ 31 + 2 ^ 47 := by
  have hv := v.isLt
  calc |x.toInt * 65536 + t.toInt * v.toNat|
      ≤ |x.toInt * 65536| + |t.toInt * v.toNat| := abs_add_le _ _
    _ = |x.toInt| * 65536 + |t.toInt| * v.toNat := by rw [abs_mul, abs_mul, Nat.abs_cast, Nat.abs_ofNat]
    _ ≤ 2 ^ 15 * 65536 + 2 ^ 15 * v.toNat := by gcongr <;> exact abs_sample_le _
    _ < 2 ^ 31 + 2 ^ 47 := by omega

/-- Settles O9: `clampTrunc` is `sampleOf` of the clamped quotient in `mix_eq`. -/
theorem echoMixIsNarrowedOnce : Obligations.EchoMixIsNarrowedOnce :=
  ⟨fun x t v => ⟨mix_eq x t v, abs_mixSum_lt x t v⟩, by decide⟩

end Sys2Proof.Machine
end

section
/-! SUPPORT. The two lanes of a commit: each reads its own buffer, and of the other shares the length
alone. -/

namespace Sys2Proof.Machine

@[simp] theorem applyCommit_count (p : Pending) (s : State) : (applyCommit p s).count =
    BitVec.ofNat 32 (laneOf p (s.mem.selected p.chans)).cnt :=
  congrArg State.count (applyCommit_eq p s)

/-- The selected buffer of the commit is the transform of the old one (60_exceptions.md R217). -/
theorem applyCommit_buf (p : Pending) (s : State) {c : Chan} (h : selects p.chans c = true) :
    (applyCommit p s).mem.buf c = (laneOf p (s.mem.buf c)).out := by
  rw [applyCommit_mem, Memory.mapSelected_buf, if_pos h]

/-- The value for COUNT depends on the buffer's length alone (40_datapath.md R119). -/
theorem laneOf_cnt_congr (p : Pending) {b b' : List Sample} (h : b.length = b'.length) :
    (laneOf p b).cnt = (laneOf p b').cnt := by
  obtain ⟨op, ch, p0, p1, n⟩ := p
  cases op with
  | vol | fadein | fadeout | echo => rfl
  | resample => exact congrArg (newLen .resample p0) h

/-- COUNT and DELTA of a commit depend on the length of the selected buffer alone. -/
theorem applyCommit_count_delta_congr {p : Pending} {ch : ChanSel} {s : State}
    (h : (s.mem.selected ch).length = (s.mem.selected p.chans).length) :
    (applyCommit { p with chans := ch } s).count = (applyCommit p s).count ∧
    (applyCommit { p with chans := ch } s).delta = (applyCommit p s).delta := by
  have hcnt := laneOf_cnt_congr p h
  have hlen : (laneOf p (s.mem.selected ch)).out.length =
      (laneOf p (s.mem.selected p.chans)).out.length := by
    rw [laneOf_length, laneOf_length, h]
  rw [applyCommit_count, applyCommit_count, applyCommit_delta, applyCommit_delta, ← hcnt, ← hlen]
  exact ⟨rfl, rfl⟩

/-- No transform reads the channel set: commits that differ in it alone give a channel they both select
the same buffer (40_datapath.md R120). -/
theorem applyCommit_buf_congr {p : Pending} (s : State) {ch : ChanSel} {c : Chan}
    (h : selects p.chans c = true) (h' : selects ch c = true) :
    (applyCommit p s).mem.buf c = (applyCommit { p with chans := ch } s).mem.buf c := by
  rw [applyCommit_buf p s h, applyCommit_buf { p with chans := ch } s h']
  rfl

/-- Settles O44: the lanes share the latched length, and so the new length, COUNT and DELTA. -/
theorem lanesAreIndependent : Obligations.LanesAreIndependent := by
  intro s p hch h0 h1
  have hsel : ∀ c, selects p.chans c = true := by
    rw [hch]
    exact fun _ => rfl
  have hlen (c : Chan) (h : (s.mem.buf c).length = p.n) :
      ((applyCommit p s).mem.buf c).length = newLen p.op p.p0 p.n := by
    rw [applyCommit_buf p s (hsel c), laneOf_length, h]
  refine ⟨applyCommit_buf_congr s (hsel .left) rfl, applyCommit_buf_congr s (hsel .right) rfl,
    (hlen .left h0).trans (hlen .right h1).symm, fun ch hside => applyCommit_count_delta_congr ?_⟩
  rw [hch]
  rcases hside with rfl | rfl
  · rfl
  · exact h1.trans h0.symm

end Sys2Proof.Machine
end

section
/-! SUPPORT. A command from its CMD write to its commit, the same for all five: the state after each of the two
steps, and that the acceptance checks alone make it run. -/

namespace Sys2Proof.Machine

open Sys2Proof.Claims

/-- The state right after the CMD write of an accepted command (60_exceptions.md R215). -/
def State.acceptedWith (s : State) (i : Instr) : State :=
  { s with status := acceptedStatus s, pend := some (latch i.op i.ch s) }

/-- The state after the commit that follows (60_exceptions.md R217). -/
def State.committedWith (s : State) (i : Instr) : State :=
  applyCommit (latch i.op i.ch s) (s.acceptedWith i)

/-- The length the latch takes is the common length of the selected channels. -/
theorem selectedLen_eq_commonLen (s : State) (ch : ChanSel) : selectedLen s.mem ch = commonLen s ch := by
  cases ch <;> rfl

section committedWith

variable {s : State} {i : Instr}

theorem exec_of_check (hb : s.status.busy = false) (h : check i.op i.ch s = none) :
    exec i s = .next (s.acceptedWith i) := by
  rw [exec_eq_issue, issue_accepted hb h]
  rfl

/-- Acceptance changes nothing that the commit's guard reads, so the checks still rule every hazard out. -/
theorem engineTurn_acceptedWith (hr : s.rst = false) (h : check i.op i.ch s = none) :
    engineTurn (s.acceptedWith i) = .next (s.committedWith i) := by
  have hhazard : commitHazard (latch i.op i.ch s) (s.acceptedWith i) = none := no_hazard_of_check h
  have hrst : (s.acceptedWith i).rst = false := hr
  simp only [engineTurn, hrst]
  exact commit_of_no_hazard hhazard

/-- What no commit changes (60_exceptions.md R217). -/
theorem State.committedWith_frame (s : State) (i : Instr) :
    s.committedWith i = { s with
      status := doneStatus s
      pend := none
      mem := (s.committedWith i).mem
      count := (s.committedWith i).count
      delta := (s.committedWith i).delta
      dl := (s.committedWith i).dl
      wp := (s.committedWith i).wp
      acc := (s.committedWith i).acc } := by
  cases i <;> rfl

/-- A command that passes its checks in an idle state runs to its commit (60_exceptions.md R211, R216). -/
theorem runsTo_committedWith (hidle : Idle s) (h : check i.op i.ch s = none) :
    RunsTo i s (s.committedWith i) := by
  obtain ⟨hb, hr⟩ := hidle
  refine ⟨s.acceptedWith i, exec_of_check hb h, ?_, engineTurn_acceptedWith hr h, s.committedWith_frame i⟩
  rw [← selectedLen_eq_commonLen]
  rfl

@[simp] theorem committedWith_buf (s : State) (i : Instr) (c : Chan) : (s.committedWith i).mem.buf c =
    if selects i.ch c then (laneOf (latch i.op i.ch s) (s.mem.buf c)).out else s.mem.buf c := by
  rw [State.committedWith, applyCommit_mem, Memory.mapSelected_buf]
  rfl

@[simp] theorem committedWith_count (s : State) (i : Instr) : (s.committedWith i).count =
    BitVec.ofNat 32 (laneOf (latch i.op i.ch s) (s.mem.selected i.ch)).cnt :=
  applyCommit_count _ _

/-- DELTA is four times what the new length exceeds the old one by (10_state.md R33). -/
theorem committedWith_delta (h : check i.op i.ch s = none) : (s.committedWith i).delta =
    BitVec.ofInt 32 (4 * ((newLen i.op s.param0 (commonLen s i.ch) : Int) - commonLen s i.ch)) := by
  obtain ⟨hch, -, hboth, -⟩ := (check_none_iff i.op i.ch s).1 h
  have hlen : (s.mem.selected i.ch).length = selectedLen s.mem i.ch :=
    Memory.selected_length hch fun _ hc => (selectedLen_of_selects hboth hc).symm
  rw [State.committedWith, applyCommit_delta, laneOf_length, ← selectedLen_eq_commonLen]
  exact congrArg
    (fun n : Nat => BitVec.ofInt 32 (4 * ((newLen i.op s.param0 n : Int) - selectedLen s.mem i.ch))) hlen

end committedWith

end Sys2Proof.Machine
end

section
/-! SUPPORT. VOL: the gain multiplier as a number, the lane it gives, and its run from the CMD write to the
commit. -/

namespace Sys2Proof.Machine

open Sys2Proof.Claims

/-- The gain multiplier in the words of the claims (40_datapath.md R114). -/
theorem mulg_eq_clampTrunc (x : Sample) (f : Word) : mulg x f = clampTrunc (x.toInt * f.toNat) 65536 :=
  mulg_eq x f

/-- An output sample as a number: the clamped quotient is in range, so the sample holds it. -/
theorem mulg_toInt (x : Sample) (f : Word) :
    (mulg x f).toInt = max (-32768) (min 32767 ((x.toInt * f.toNat).tdiv 65536)) := by
  rw [mulg_eq, toInt_sampleOf] <;> omega

/-- A whole gain k has the pattern k 2^16, which divides out of the product with no remainder; the clamp does
nothing where the product is in range (41_volume.md R143). -/
theorem mulg_wholeGain_toInt {x : Sample} {k : Nat} (hk : k < 65536)
    (hx : -32768 ≤ x.toInt * k ∧ x.toInt * k ≤ 32767) :
    (mulg x (BitVec.ofNat 32 (k * 65536))).toInt = x.toInt * k := by
  have hpattern : (BitVec.ofNat 32 (k * 65536)).toNat = k * 65536 := by
    rw [BitVec.toNat_ofNat, Nat.mod_eq_of_lt (by omega)]
  have hquot : (x.toInt * (k * 65536 : Nat)).tdiv 65536 = x.toInt * k := by
    rw [Nat.cast_mul, ← mul_assoc]
    exact Int.mul_tdiv_cancel _ (by decide)
  rw [mulg_toInt, hpattern, hquot]
  omega

/-- The numbers of a VOL lane, from the number of one output sample. -/
theorem volLane_map_toInt {f : Word} {b : List Sample} {g : Sample → Int}
    (h : ∀ x ∈ b, (mulg x f).toInt = g x) : (volLane f b).out.map BitVec.toInt = b.map g := by
  rw [volLane, List.map_map]
  exact List.map_congr_left h

theorem volLane_one (b : List Sample) : (volLane 0x00010000 b).out = b := by
  rw [volLane, List.map_congr_left fun x _ => mulg_one x, List.map_id']

/-- VOL is checked for F = 0, the channel set and the lengths alone: no result of it can fail to fit. -/
theorem check_vol_eq_none {s : State} {ch : ChanSel} (hch : ch ≠ .reserved) (hp : s.param0 ≠ 0#32)
    (hlen : SameLength ch s) : check .vol ch s = none :=
  (check_none_iff .vol ch s).2 ⟨hch, if_neg hp, hlen, rfl⟩

/-- Each selected buffer goes through the VOL lane (41_volume.md R140). -/
theorem committedWith_vol_buf (s : State) (ch : ChanSel) (c : Chan) :
    (s.committedWith (.vol ch)).mem.buf c =
      if selects ch c then (volLane s.param0 (s.mem.buf c)).out else s.mem.buf c :=
  committedWith_buf s (.vol ch) c

/-- Settles O28: the run of an accepted command, with the VOL lane's buffers, COUNT and length. -/
theorem volScalesAndCommits : Obligations.VolScalesAndCommits := by
  intro s ch hidle hch hp hlen
  have hcheck : check .vol ch s = none := check_vol_eq_none hch hp hlen
  refine ⟨s.committedWith (.vol ch), runsTo_committedWith hidle hcheck, fun c => ?_,
    committedWith_count s (.vol ch), ?_, rfl, rfl, rfl⟩
  · simp only [committedWith_vol_buf, volLane, mulg_eq_clampTrunc]
  · rw [committedWith_delta (i := .vol ch) hcheck]
    simp [Instr.op, newLen]

/-- Settles O33: at 1.0 the VOL lane is the identity on every buffer. -/
theorem volByOneIsTheIdentity : Obligations.VolByOneIsTheIdentity := by
  intro s ch hidle hch hone hlen
  have hp : s.param0 ≠ 0#32 := by
    rw [hone]
    decide
  refine ⟨s.committedWith (.vol ch), runsTo_committedWith hidle (check_vol_eq_none hch hp hlen),
    Memory.ext_buf fun c => ?_⟩
  rw [committedWith_vol_buf, hone, volLane_one, ite_self]

/-- Settles O34: the exact number of an output sample, the range of every sample, and the two values at 2.0
evaluated. -/
theorem volSaturates : Obligations.VolSaturates :=
  ⟨fun f _ => ⟨volLane_map_toInt fun x _ => mulg_toInt x f, fun y _ => sample_range y⟩, by decide⟩

/-- Settles O35: sample by sample. -/
theorem volByAWholeGainIsExact : Obligations.VolByAWholeGainIsExact :=
  fun _ _ _ hk hfit => volLane_map_toInt fun x hx => mulg_wholeGain_toInt hk (hfit x hx)

end Sys2Proof.Machine
end

section
/-! SUPPORT. FADEIN and FADEOUT: the two lanes sample by sample, what the two runs share, and the laws that
relate their ramps. -/

namespace Sys2Proof.Machine

open Sys2Proof.Claims

/-- `sampleCount_pos` in the words of the claims (40_datapath.md R113). -/
theorem countOf_pos {p : Word} (hp : p ≠ 0#32) : 0 < countOf p := sampleCount_pos hp

/-- The envelope multiplier in the words of the claims (40_datapath.md R115). -/
theorem menv_eq_clampTrunc (x : Sample) (k : Nat) {c : Nat} (hc : 0 < c) :
    menv x k c = clampTrunc (x.toInt * k * k) (c * c) :=
  menv_eq x k hc

/-- The lower end of the ramp silences the sample (40_datapath.md R115). -/
theorem menv_zero (x : Sample) {c : Nat} (hc : 0 < c) : menv x 0 c = 0 := by
  obtain ⟨-, -, hzero, -⟩ := envelopeNeverSaturates x 0 c hc (Nat.zero_le c)
  exact hzero

section lanes

variable {p : Word} {b : List Sample} {i : Nat} {x : Sample} (hx : b[i]? = some x)
include hx

/-- On its ramp FADEIN is the envelope multiplier at position i (42_fade.md R152). -/
theorem fadeinLane_ramp (hi : i < countOf p) : (fadeinLane p b).out[i]? = some (menv x i (countOf p)) := by
  rw [fadeinLane, List.getElem?_mapIdx, hx]
  exact congrArg some (if_pos hi)

/-- Past its ramp FADEIN keeps the sample (42_fade.md R152). -/
theorem fadeinLane_keep (hi : countOf p ≤ i) : (fadeinLane p b).out[i]? = some x := by
  rw [fadeinLane, List.getElem?_mapIdx, hx]
  exact congrArg some (if_neg hi.not_gt)

/-- On its ramp FADEOUT is the envelope multiplier at position n - i (42_fade.md R155). -/
theorem fadeoutLane_ramp (hi : b.length - countOf p ≤ i) :
    (fadeoutLane p b).out[i]? = some (menv x (b.length - i) (countOf p)) := by
  rw [fadeoutLane, List.getElem?_mapIdx, hx]
  exact congrArg some (if_pos hi)

/-- Before its ramp FADEOUT keeps the sample (42_fade.md R155). -/
theorem fadeoutLane_keep (hi : i < b.length - countOf p) : (fadeoutLane p b).out[i]? = some x := by
  rw [fadeoutLane, List.getElem?_mapIdx, hx]
  exact congrArg some (if_neg hi.not_ge)

theorem fadeinLane_gain (hp : p ≠ 0#32) (hi : i < countOf p) :
    (fadeinLane p b).out[i]? = some (clampTrunc (x.toInt * i * i) (countOf p * countOf p)) := by
  rw [fadeinLane_ramp hx hi, menv_eq_clampTrunc x i (countOf_pos hp)]

/-- The ramp position n - i is never clamped, so it is the signed difference. -/
theorem fadeoutLane_gain (hp : p ≠ 0#32) (hi : (b.length : Int) - countOf p ≤ i) :
    (fadeoutLane p b).out[i]? =
      some (clampTrunc (x.toInt * (b.length - i) * (b.length - i)) (countOf p * countOf p)) := by
  obtain ⟨hlt, -⟩ := List.getElem?_eq_some_iff.1 hx
  rw [fadeoutLane_ramp hx (by omega), menv_eq_clampTrunc x _ (countOf_pos hp), Nat.cast_sub hlt.le]

end lanes

/-! ### The run from the CMD write to the commit -/

/-- A commit leaves a channel outside the command's set as it was (60_exceptions.md R217). -/
theorem committedWith_buf_unselected (s : State) {i : Instr} {c : Chan} (h : selects i.ch c = false) :
    (s.committedWith i).mem.buf c = s.mem.buf c := by
  rw [committedWith_buf, h]
  rfl

section fade

variable {s : State} {i : Instr} (hop : i.op = .fadein ∨ i.op = .fadeout)
include hop

/-- A fade is checked for the time 0, the channel set and the lengths alone: no result of it can fail to
fit. -/
theorem check_fade_eq_none (hch : i.ch ≠ .reserved) (hp : s.param0 ≠ 0#32) (hlen : SameLength i.ch s) :
    check i.op i.ch s = none := by
  rcases hop with h | h <;> rw [h]
  · exact (check_none_iff .fadein i.ch s).2 ⟨hch, if_neg hp, hlen, rfl⟩
  · exact (check_none_iff .fadeout i.ch s).2 ⟨hch, if_neg hp, hlen, rfl⟩

/-- COUNT is C, with nothing lost in the 32 bits (42_fade.md R151). -/
theorem committedWith_fade_count : (s.committedWith i).count.toNat = countOf s.param0 := by
  have hcnt : (laneOf (latch i.op i.ch s) (s.mem.selected i.ch)).cnt = countOf s.param0 := by
    rcases hop with h | h <;> rw [h] <;> rfl
  rw [committedWith_count, hcnt, BitVec.toNat_ofNat]
  exact Nat.mod_eq_of_lt (sampleCount_lt s.param0)

/-- A fade keeps the length, so DELTA is 0. -/
theorem committedWith_fade_delta (hcheck : check i.op i.ch s = none) : (s.committedWith i).delta = 0 := by
  have hnew : newLen i.op s.param0 (commonLen s i.ch) = commonLen s i.ch := by
    rcases hop with h | h <;> rw [h] <;> rfl
  rw [committedWith_delta hcheck, hnew, sub_self]
  rfl

end fade

/-- Settles O29: the run of an accepted command, with the FADEIN lane's samples on both sides of C. -/
theorem fadeinRampsUpAndCommits : Obligations.FadeinRampsUpAndCommits := by
  intro s ch hidle hch hp hlen
  have hcheck : check .fadein ch s = none := check_fade_eq_none (i := .fadein ch) (.inl rfl) hch hp hlen
  refine ⟨s.committedWith (.fadein ch), runsTo_committedWith hidle hcheck,
    fun c hc => committedWith_buf_unselected s hc, fun c hc => ?_,
    committedWith_fade_count (.inl rfl), committedWith_fade_delta (.inl rfl) hcheck, rfl, rfl, rfl⟩
  have hbuf : (s.committedWith (.fadein ch)).mem.buf c = (fadeinLane s.param0 (s.mem.buf c)).out :=
    (committedWith_buf s (.fadein ch) c).trans (if_pos hc)
  rw [hbuf]
  exact ⟨List.length_mapIdx, fun i x hx => ⟨fadeinLane_gain hx hp, fadeinLane_keep hx⟩⟩

/-- Settles O30: the run of an accepted command, with the FADEOUT lane's samples on both sides of
max(0, n - C). -/
theorem fadeoutRampsDownAndCommits : Obligations.FadeoutRampsDownAndCommits := by
  intro s ch hidle hch hp hlen
  have hcheck : check .fadeout ch s = none := check_fade_eq_none (i := .fadeout ch) (.inr rfl) hch hp hlen
  refine ⟨s.committedWith (.fadeout ch), runsTo_committedWith hidle hcheck,
    fun c hc => committedWith_buf_unselected s hc, fun c hc => ?_,
    committedWith_fade_count (.inr rfl), committedWith_fade_delta (.inr rfl) hcheck, rfl, rfl, rfl⟩
  have hbuf : (s.committedWith (.fadeout ch)).mem.buf c = (fadeoutLane s.param0 (s.mem.buf c)).out :=
    (committedWith_buf s (.fadeout ch) c).trans (if_pos hc)
  rw [hbuf]
  exact ⟨List.length_mapIdx, fun i x hx =>
    ⟨fadeoutLane_gain hx hp, fun hi => fadeoutLane_keep hx (by omega)⟩⟩

/-! ### The laws of the ramps -/

/-- Settles O36: a valid time has C > 0, so sample 0 is on the ramp, at its lower end; and with C >= n every
sample is on it. -/
theorem fadeinStartsAtZero : Obligations.FadeinStartsAtZero := by
  intro p b hp
  have hc := countOf_pos hp
  refine ⟨fun x hx => ?_, fun hn i x hx => ?_⟩
  · rw [fadeinLane_ramp hx hc, menv_zero x hc]
  · obtain ⟨hlt, -⟩ := List.getElem?_eq_some_iff.1 hx
    exact fadeinLane_gain hx hp (hlt.trans_le hn)

/-- Settles O37: C - (i - (n - C)) = n - i in signed arithmetic, wherever the loop starts. -/
theorem fadeoutRampIsTheSourceFormula : Obligations.FadeoutRampIsTheSourceFormula := by
  intro p b i y hp hy hi x
  obtain ⟨hlt, -⟩ := List.getElem?_eq_some_iff.1 hy
  have hpos : (countOf p : Int) - x = b.length - i := by omega
  refine ⟨hpos, by omega, by omega, ?_⟩
  rw [hpos, ← mul_assoc]
  exact fadeoutLane_gain hy hp ((le_max_right _ _).trans hi)

/-- With C >= n the whole of FADEOUT is ramp, and counted from the end sample i has the position i + 1
(42_fade.md R157). -/
theorem fadeoutLane_reverse_ramp {p : Word} {b : List Sample} {i : Nat} {x : Sample}
    (hn : b.length ≤ countOf p) (hx : b.reverse[i]? = some x) :
    (fadeoutLane p b).out.reverse[i]? = some (menv x (i + 1) (countOf p)) := by
  obtain ⟨hlt, -⟩ := List.getElem?_eq_some_iff.1 hx
  rw [List.length_reverse] at hlt
  have hlen : (fadeoutLane p b).out.length = b.length := List.length_mapIdx
  rw [List.getElem?_reverse hlt] at hx
  rw [List.getElem?_reverse (by omega), hlen, fadeoutLane_ramp hx (by omega)]
  congr 2
  omega

/-- Settles O38: the two ramps at sample i, and a clip of one sample that FADEIN silences and FADEOUT
keeps. -/
theorem fadesAreNotMirrorImages : Obligations.FadesAreNotMirrorImages := by
  refine ⟨fun p b i x _ hn hx => ⟨fadeinLane_ramp hx ?_, fadeoutLane_reverse_ramp hn hx⟩, 1, [1], by decide⟩
  obtain ⟨hlt, -⟩ := List.getElem?_eq_some_iff.1 hx
  rw [List.length_reverse] at hlt
  exact hlt.trans_le hn

end Sys2Proof.Machine
end

section
/-! SUPPORT. RESAMPLE: the index kernel stays in the buffer, the phase accumulator in closed form, and the run
from the CMD write to the commit. -/

namespace Sys2Proof.Machine

open Sys2Proof.Claims

/-! ### The index kernel and the lane -/

/-- As L' = floor(n 2^16 / F), the phase after k <= L' samples is at most n 2^16 (43_resample.md R171). -/
theorem phase_le {f : Word} {n k : Nat} (h : k ≤ newLen .resample f n) : k * f.toNat ≤ n * 65536 :=
  Nat.mul_le_of_le_div f.toNat k (n * 65536) h

/-- Below L' the phase of sample j is a whole step of F short of its bound, so the index is in the buffer
(43_resample.md R173). -/
theorem resampleIdx_lt {f : Word} {n j : Nat} (hj : j < newLen .resample f n) : resampleIdx f j < n := by
  have hf : f.toNat ≠ 0 := by
    intro h0
    simp [newLen, h0] at hj
  refine Nat.div_lt_of_lt_mul ?_
  calc j * f.toNat < (j + 1) * f.toNat := by rw [Nat.succ_mul]; omega
    _ ≤ n * 65536 := phase_le hj
    _ = 65536 * n := Nat.mul_comm _ _

theorem resampleIdx_mono (f : Word) {j k : Nat} (h : j ≤ k) : resampleIdx f j ≤ resampleIdx f k :=
  Nat.div_le_div_right (Nat.mul_le_mul_right f.toNat h)

theorem resampleIdx_zero (f : Word) : resampleIdx f 0 = 0 := by
  rw [resampleIdx, Nat.zero_mul, Nat.zero_div]

theorem resampleLane_length (f : Word) (b : List Sample) :
    (resampleLane f b).out.length = newLen .resample f b.length := by
  rw [resampleLane, List.length_map, List.length_range]

/-- An output sample is the old sample at the kernel's index; the read's default is never met
(43_resample.md R170). -/
theorem resampleLane_getElem? {f : Word} {b : List Sample} {j : Nat}
    (hj : j < newLen .resample f b.length) : (resampleLane f b).out[j]? = b[resampleIdx f j]? := by
  have hidx : resampleIdx f j < b.length := resampleIdx_lt hj
  rw [resampleLane, List.getElem?_map, List.getElem?_range hj, List.getElem?_eq_getElem hidx, Option.map_some,
    List.getD_eq_getElem _ _ hidx]

/-- Settles O39: one lemma per property of the kernel. -/
theorem resampleNeverReadsPastTheEnd : Obligations.ResampleNeverReadsPastTheEnd :=
  fun f _ _ => ⟨fun _ => resampleIdx_lt, fun _ _ => resampleIdx_mono f, resampleIdx_zero f⟩

/-- At 2.0 the length is halved (43_resample.md R175). -/
theorem newLen_resample_two (n : Nat) : newLen .resample 0x00020000 n = n / 2 :=
  Nat.mul_div_mul_right n 2 (by decide : 0 < 65536)

/-- At 2.0 the kernel takes every second sample (43_resample.md R175). -/
theorem resampleIdx_two (j : Nat) : resampleIdx 0x00020000 j = 2 * j := by
  have hspeed : (0x00020000 : Word).toNat = 131072 := rfl
  rw [resampleIdx, hspeed, one_eq]
  omega

/-- Settles O40: length and index of the lane at 2.0. -/
theorem resampleByTwoKeepsEvenSamples : Obligations.ResampleByTwoKeepsEvenSamples := by
  intro b
  rw [resampleLane_length, newLen_resample_two]
  refine ⟨rfl, fun j hj => ?_⟩
  rw [← newLen_resample_two] at hj
  rw [resampleLane_getElem? hj, resampleIdx_two]

/-! ### The phase accumulator -/

/-- Bits 47:16 of ACC are its whole part (43_resample.md R172). -/
theorem acc_index {a : Nat} (h : a < 2 ^ 48) : ((BitVec.ofNat 48 a).extractLsb' 16 32).toNat = a / 65536 := by
  rw [BitVec.extractLsb'_toNat, BitVec.toNat_ofNat, Nat.mod_eq_of_lt h, Nat.shiftRight_eq_div_pow]
  omega

/-- The loop from phase a on, where 48 bits hold its last phase: step j has the phase a + j F, and reads at
its whole part (43_resample.md R172). -/
theorem phaseLoop_eq (f : Word) (b : List Sample) (k : Nat) : ∀ a, a + k * f.toNat < 2 ^ 48 →
    phaseLoop f b k (BitVec.ofNat 48 a) =
      ((List.range k).map fun j => b.getD ((a + j * f.toNat) / 65536) 0, BitVec.ofNat 48 (a + k * f.toNat)) := by
  induction k with
  | zero => simp [phaseLoop]
  | succ k ih =>
    intro a ha
    have hphase (j : Nat) : a + f.toNat + j * f.toNat = a + (j + 1) * f.toNat := by rw [Nat.succ_mul]; omega
    have hacc : BitVec.ofNat 48 a + f.setWidth 48 = BitVec.ofNat 48 (a + f.toNat) := by
      rw [BitVec.ofNat_add, BitVec.ofNat_toNat]
    rw [phaseLoop, hacc, ih (a + f.toNat) (by rwa [hphase]), acc_index (by omega), List.range_succ_eq_map]
    simp [hphase]

section fromZero

variable {f : Word} {b : List Sample} (hb : b.length ≤ 2 ^ 28) {k : Nat} (hk : k ≤ newLen .resample f b.length)
include hb hk

/-- For a buffer within the largest MAXLEN the phase stays within 2^44 (43_resample.md R172). -/
theorem phase_le_two_pow : k * f.toNat ≤ 2 ^ 44 :=
  (phase_le hk).trans (by omega)

/-- So from phase 0 the loop computes the index kernel, with ACC = k F (43_resample.md R172). -/
theorem phaseLoop_zero_eq : phaseLoop f b k 0 =
    ((List.range k).map fun j => b.getD (resampleIdx f j) 0, BitVec.ofNat 48 (k * f.toNat)) := by
  have hphase := phase_le_two_pow hb hk
  have hloop := phaseLoop_eq f b k 0 (by omega)
  simp only [Nat.zero_add] at hloop
  exact hloop

theorem phaseLoop_zero_acc : (phaseLoop f b k 0).2 = BitVec.ofNat 48 (k * f.toNat) :=
  congrArg Prod.snd (phaseLoop_zero_eq hb hk)

end fromZero

/-- Settles O41: the closed form of the loop, at every prefix and at L'. -/
theorem phaseAccumulatorComputesResample : Obligations.PhaseAccumulatorComputesResample := by
  intro f b _ hb
  refine ⟨fun k hk => ?_, fun j hj => ?_, congrArg Prod.fst (phaseLoop_zero_eq hb le_rfl)⟩
  · have hphase := phase_le_two_pow hb hk
    rw [phaseLoop_zero_acc hb hk, BitVec.toNat_ofNat]
    exact ⟨Nat.mod_eq_of_lt (by omega), hphase⟩
  · have hphase := phase_le_two_pow hb hj.le
    rw [phaseLoop_zero_acc hb hj.le, acc_index (by omega)]

/-! ### The run from the CMD write to the commit -/

/-- RESAMPLE is checked for F = 0, the channel set, the lengths, and that its result fits MAXLEN. -/
theorem check_resample_eq_none {s : State} {ch : ChanSel} (hch : ch ≠ .reserved) (hp : s.param0 ≠ 0#32)
    (hlen : SameLength ch s) (hfit : newLen .resample s.param0 (commonLen s ch) ≤ s.cfg.maxLen) :
    check .resample ch s = none := by
  rw [← selectedLen_eq_commonLen] at hfit
  exact (check_none_iff .resample ch s).2 ⟨hch, if_neg hp, hlen, if_neg hfit.not_gt⟩

/-- COUNT and the latch take the length of the same buffer. -/
theorem length_selected_eq_commonLen (s : State) (ch : ChanSel) :
    (s.mem.selected ch).length = commonLen s ch := by
  cases ch <;> rfl

/-- Settles O31: the run of an accepted command, with the RESAMPLE lane's length and samples. -/
theorem resampleSelectsAndCommits : Obligations.ResampleSelectsAndCommits := by
  intro s ch hidle hch hp hlen hfit
  have hcheck : check .resample ch s = none := check_resample_eq_none hch hp hlen hfit
  refine ⟨s.committedWith (.resample ch), runsTo_committedWith hidle hcheck,
    fun c hc => committedWith_buf_unselected s hc, fun c hc => ?_, ?_,
    committedWith_delta (i := .resample ch) hcheck, rfl, rfl⟩
  · have hbuf : (s.committedWith (.resample ch)).mem.buf c = (resampleLane s.param0 (s.mem.buf c)).out :=
      (committedWith_buf s (.resample ch) c).trans (if_pos hc)
    rw [hbuf]
    exact ⟨resampleLane_length s.param0 _, fun j hj => resampleLane_getElem? hj⟩
  · rw [← length_selected_eq_commonLen]
    exact committedWith_count s (.resample ch)

end Sys2Proof.Machine
end

section
/-! SUPPORT. ECHO: the lane sample by sample, the delay line step by step, and the run from the CMD write to the
commit. -/

namespace Sys2Proof.Machine

open Sys2Proof.Claims

/-! ### The lane -/

/-- Sample i of an echo with delay d and volume v, the buffer read as zero past its end (44_echo.md R190). -/
def echoSample (v : Word) (b : List Sample) (d i : Nat) : Sample :=
  if d ≤ i then mix (b.getD i 0) (b.getD (i - d) 0) v else b.getD i 0

/-- The echo mixer in the words of the claims (40_datapath.md R116). -/
theorem mix_eq_clampTrunc (x t : Sample) (v : Word) :
    mix x t v = clampTrunc (x.toInt * 65536 + t.toInt * v.toNat) 65536 :=
  mix_eq x t v

/-- Where nothing is left of the dry signal, the mixer scales the delayed sample alone (44_echo.md R195). -/
theorem mix_zero_eq_clampTrunc (t : Sample) (v : Word) : mix 0 t v = clampTrunc (t.toInt * v.toNat) 65536 := by
  have hzero : (0 : Sample).toInt = 0 := rfl
  rw [mix_eq_clampTrunc, hzero, zero_mul, zero_add]

/-- A padded buffer reads as the buffer with its missing samples zero. -/
theorem getD_append_zeros (b : List Sample) (d i : Nat) : (b ++ List.replicate d 0).getD i 0 = b.getD i 0 := by
  rcases lt_or_ge i b.length with hi | hi
  · exact List.getD_append b _ 0 i hi
  · rw [List.getD_append_right b _ 0 i hi, List.getD_eq_default b 0 hi, List.getD_eq_getElem?_getD,
      List.getElem?_getD_replicate_default_eq]

theorem echoLane_length (p0 p1 : Word) (b : List Sample) :
    (echoLane p0 p1 b).out.length = b.length + countOf p0 := by
  rw [echoLane, List.length_mapIdx, List.length_append, List.length_replicate]
  rfl

section echoLane

variable {p0 p1 : Word} {b : List Sample} {i : Nat}

theorem echoLane_getElem? (hi : i < b.length + countOf p0) :
    (echoLane p0 p1 b).out[i]? = some (echoSample p1 b (countOf p0) i) := by
  have hpad : (b ++ List.replicate (countOf p0) 0)[i]? = some (b.getD i 0) := by
    rw [← getD_append_zeros b (countOf p0) i, List.getD_eq_getElem _ _ (by simpa using hi)]
    exact List.getElem?_eq_getElem _
  exact List.getElem?_mapIdx.trans (congrArg (Option.map _) hpad)

/-- Before the first echo the padded buffer passes through (44_echo.md R190). -/
theorem echoLane_dry (hi : i < countOf p0) : (echoLane p0 p1 b).out[i]? = some (b.getD i 0) := by
  rw [echoLane_getElem? (by omega), echoSample, if_neg hi.not_ge]

/-- D places after an old sample its echo is mixed into the padded buffer (44_echo.md R190). -/
theorem echoLane_mix {t : Sample} (hD : countOf p0 ≤ i) (ht : b[i - countOf p0]? = some t) :
    (echoLane p0 p1 b).out[i]? = some (mix (b.getD i 0) t p1) := by
  obtain ⟨hlt, -⟩ := List.getElem?_eq_some_iff.1 ht
  rw [echoLane_getElem? (by omega), echoSample, if_pos hD, List.getD_eq_getElem?_getD (i := i - countOf p0), ht]
  rfl

theorem echoLane_keep (hi : i < countOf p0) (hn : i < b.length) : (echoLane p0 p1 b).out[i]? = b[i]? := by
  rw [echoLane_dry hi, List.getD_eq_getElem _ _ hn, List.getElem?_eq_getElem hn]

theorem echoLane_gap (hn : b.length ≤ i) (hi : i < countOf p0) : (echoLane p0 p1 b).out[i]? = some 0 := by
  rw [echoLane_dry hi, List.getD_eq_default _ _ hn]

end echoLane

/-- The lane as one formula over its indices. -/
theorem echoLane_out (p0 p1 : Word) (b : List Sample) : (echoLane p0 p1 b).out =
    (List.range (b.length + countOf p0)).map (echoSample p1 b (countOf p0)) := by
  refine List.ext_getElem? fun i => ?_
  rcases lt_or_ge i (b.length + countOf p0) with hi | hi
  · rw [echoLane_getElem? hi, List.getElem?_map, List.getElem?_range hi, Option.map_some]
  · rw [List.getElem?_eq_none (by rwa [echoLane_length]), List.getElem?_eq_none (by simpa using hi)]

/-- Settles O43: one lemma per range. -/
theorem echoPiecewise : Obligations.EchoPiecewise := by
  intro p0 p1 b i _
  refine ⟨fun hi => ?_, fun x t hD hx ht => ?_, echoLane_gap, fun t hi ht => ?_, fun hi => ?_⟩
  · obtain ⟨hD, hn⟩ := lt_min_iff.1 hi
    exact echoLane_keep hD hn
  · rw [echoLane_mix hD ht, List.getD_eq_getElem?_getD, hx, Option.getD_some]
  · obtain ⟨hn, hD⟩ := max_le_iff.1 hi
    rw [echoLane_mix hD ht, List.getD_eq_default _ _ hn, mix_zero_eq_clampTrunc]
    exact ⟨rfl, rfl⟩
  · exact List.getElem?_eq_none (by rwa [echoLane_length])

/-! ### The delay line -/

/-- The delay line before step i of an echo of b with delay d: the pointer is i mod d, and the entries the
command has written hold its last d inputs (44_echo.md R192, R194). Of the other entries nothing is said. -/
structure DelayLine.AtStep (b : List Sample) (d i : Nat) (l : DelayLine) : Prop where
  wp : l.wp = i % d
  held : ∀ j, j < i → i ≤ j + d → dlRead l.dl (j % d) = b.getD j 0

/-- Before the first step no entry need hold anything. -/
theorem DelayLine.atStep_zero (b dl : List Sample) (d : Nat) : DelayLine.AtStep b d 0 { dl := dl, wp := 0 } where
  wp := (Nat.zero_mod d).symm
  held _ hj := absurd hj (Nat.not_lt_zero _)

/-- Two indices less than d apart have different entries of a circular buffer of length d. -/
theorem mod_ne_mod_of_lt_of_lt_add {d i j : Nat} (hij : j < i) (hi : i < j + d) : j % d ≠ i % d := by
  intro h
  have hmod : (i - j) % d = 0 := Nat.sub_mod_eq_zero_of_mod_eq h.symm
  rw [Nat.mod_eq_of_lt (by omega)] at hmod
  omega

section AtStep

variable {b : List Sample} {d i : Nat} {l : DelayLine} (h : l.AtStep b d i)
include h

/-- From step d on, the entry at the pointer holds the input of d steps earlier (44_echo.md R194). -/
theorem DelayLine.AtStep.tap (hd : 0 < d) (hi : d ≤ i) : dlRead l.dl l.wp = b.getD (i - d) 0 := by
  rw [h.wp, Nat.mod_eq_sub_mod hi]
  exact h.held (i - d) (by omega) (by omega)

/-- So step i puts out sample i of R190; before step d the line is not read (44_echo.md R194). -/
theorem DelayLine.AtStep.output (v : Word) (hd : 0 < d) :
    (if d ≤ i then mix (b.getD i 0) (dlRead l.dl l.wp) v else b.getD i 0) = echoSample v b d i := by
  rw [echoSample]
  split_ifs with hi
  · rw [h.tap hd hi]
  · rfl

/-- One step of the datapath writes the current input over the oldest one, and no entry that is still to be
read (44_echo.md R193). -/
theorem DelayLine.AtStep.push :
    DelayLine.AtStep b d (i + 1) { dl := dlWrite l.dl l.wp (b.getD i 0), wp := (l.wp + 1) % d } where
  wp := by rw [h.wp, Nat.mod_add_mod]
  held j hj hd := by
    rw [h.wp]
    rcases Nat.lt_succ_iff_lt_or_eq.1 hj with hlt | rfl
    · rw [dlRead_dlWrite_other (mod_ne_mod_of_lt_of_lt_add hlt hd)]
      exact h.held j hlt (by omega)
    · exact dlRead_dlWrite_same _ _ _

end AtStep

/-- The loop gives the samples of R190, whatever the delay line held (44_echo.md R194). -/
theorem delayLoop_of_atStep (v : Word) {b : List Sample} {d : Nat} (hd : 0 < d) (k : Nat) :
    ∀ {i : Nat} {l : DelayLine}, l.AtStep b d i →
      (delayLoop v b d k i l).1 = (List.range' i k).map (echoSample v b d) ∧
      (delayLoop v b d k i l).2.AtStep b d (i + k) := by
  induction k with
  | zero => exact fun h => ⟨rfl, h⟩
  | succ k ih =>
    intro i l h
    obtain ⟨hout, hline⟩ := ih h.push
    rw [delayLoop, List.range'_succ, List.map_cons, h.output v hd, hout]
    exact ⟨rfl, by rwa [Nat.add_right_comm] at hline⟩

/-- Settles O42: the delay line at step i, its tap, and the output of the loop against the lane's. -/
theorem delayLineComputesEcho : Obligations.DelayLineComputesEcho := by
  intro p0 p1 b dl hp
  have hd := countOf_pos hp
  have hloop (k : Nat) := delayLoop_of_atStep p1 hd k (DelayLine.atStep_zero b dl (countOf p0))
  simp only [Nat.zero_add] at hloop
  refine ⟨fun i _ => ?_, fun i hi hn => ?_, ?_⟩
  · obtain ⟨-, hline⟩ := hloop i
    exact hline.wp
  · intro l
    have hline : l.AtStep b (countOf p0) i := (hloop i).2
    have hold : i - countOf p0 < b.length := by omega
    rw [hline.tap hd hi, List.getD_eq_getElem _ _ hold, List.getElem?_eq_getElem hold]
  · rw [echoLane_out, List.range_eq_range']
    exact (hloop (b.length + countOf p0)).1

/-! ### The run from the CMD write to the commit -/

/-- ECHO is checked for T = 0 and V = 0, the channel set, the lengths, and that the delay fits DLMAX and the
result MAXLEN (44_echo.md R191). -/
theorem check_echo_eq_none {s : State} {ch : ChanSel} (hch : ch ≠ .reserved) (hT : s.param0 ≠ 0#32)
    (hV : s.param1 ≠ 0#32) (hlen : SameLength ch s) (hdl : countOf s.param0 ≤ s.cfg.dlMax)
    (hfit : commonLen s ch + countOf s.param0 ≤ s.cfg.maxLen) : check .echo ch s = none := by
  have hroom : roomError s.cfg .echo s.param0 (commonLen s ch) = none :=
    (if_neg hdl.not_gt).trans (if_neg hfit.not_gt)
  rw [← selectedLen_eq_commonLen] at hroom
  exact (check_none_iff .echo ch s).2 ⟨hch, if_neg (not_or.2 ⟨hT, hV⟩), hlen, hroom⟩

/-- COUNT is D, with nothing lost in the 32 bits (44_echo.md R190). -/
theorem committedWith_echo_count (s : State) (ch : ChanSel) :
    (s.committedWith (.echo ch)).count.toNat = countOf s.param0 := by
  rw [committedWith_count, BitVec.toNat_ofNat]
  exact Nat.mod_eq_of_lt (sampleCount_lt s.param0)

/-- DELTA is four times the tail (44_echo.md R190). -/
theorem committedWith_echo_delta {s : State} {ch : ChanSel} (h : check .echo ch s = none) :
    (s.committedWith (.echo ch)).delta = BitVec.ofInt 32 (4 * (countOf s.param0 : Int)) := by
  have hnew : newLen .echo s.param0 (commonLen s ch) = commonLen s ch + countOf s.param0 := rfl
  have hdelta := committedWith_delta (i := .echo ch) h
  simp only [Instr.op, Instr.ch, hnew, Nat.cast_add, add_sub_cancel_left] at hdelta
  exact hdelta

/-- Settles O32: the run of an accepted command, with the ECHO lane's length and samples. -/
theorem echoAddsTheTailAndCommits : Obligations.EchoAddsTheTailAndCommits := by
  intro s ch hidle hch hT hV hlen hdl hfit
  have hcheck : check .echo ch s = none := check_echo_eq_none hch hT hV hlen hdl hfit
  refine ⟨s.committedWith (.echo ch), runsTo_committedWith hidle hcheck,
    fun c hc => committedWith_buf_unselected s hc, fun c hc => ?_,
    committedWith_echo_count s ch, committedWith_echo_delta hcheck, rfl⟩
  have hbuf : (s.committedWith (.echo ch)).mem.buf c = (echoLane s.param0 s.param1 (s.mem.buf c)).out :=
    (committedWith_buf s (.echo ch) c).trans (if_pos hc)
  rw [hbuf]
  refine ⟨echoLane_length _ _ _, fun i => echoLane_keep, fun i => echoLane_gap, fun i t ht => ?_⟩
  rw [echoLane_mix (Nat.le_add_left _ i) (by rwa [Nat.add_sub_cancel]), mix_eq_clampTrunc]

end Sys2Proof.Machine
end

section
/-! SUPPORT. What the port does not accept: one lemma for an offset that addresses nothing and one for a
sample beyond MAXLEN. -/

namespace Sys2Proof.Machine

open Sys2Proof.Claims

theorem acceptedTarget_of_unmapped (s : State) {a : Access} (h : target a.addr = .unmapped) :
    acceptedTarget s a = none := by
  simp [acceptedTarget, h]

/-- No sample from MAXLEN on is accepted, whatever else the access is (20_memory.md R63, R64). -/
theorem acceptedTarget_of_sample_beyond {s : State} {a : Access} {c : Chan} {i : Nat}
    (h : target a.addr = .sample c i) (hm : s.cfg.maxLen ≤ i) : acceptedTarget s a = none := by
  simp [acceptedTarget, h, hm]

/-- Settles O20: for each cause of R214 the port accepts no target. -/
theorem busErrorChangesNothing : Obligations.BusErrorChangesNothing := by
  intro s a h
  refine access_busError ?_
  rcases h with hsize | halign | hlow | hhigh | ⟨c, hlow, hhigh, hm⟩
  · simp [acceptedTarget, hsize]
  · simp [acceptedTarget, halign]
  · exact acceptedTarget_of_unmapped s (target_unmapped (.inl hlow))
  · exact acceptedTarget_of_unmapped s (target_unmapped (.inr hhigh))
  · rw [base_eq_windowBase] at hlow hhigh hm
    exact acceptedTarget_of_sample_beyond (target_of_window hlow hhigh) hm

end Sys2Proof.Machine
end

section
/-! SUPPORT. A CMD write: the number of the first failing check, the write's three outcomes, its frame, and
the step that takes it from the host's queue. -/

namespace Sys2Proof.Machine

open Sys2Proof.Claims

/-- The number of what the checks report, 0 where none fails (60_exceptions.md R212). -/
def failureNumber : Option ErrCode → Nat
  | none => 0
  | some e => (errNumber e).toNat

@[simp] theorem failureNumber_none : failureNumber none = 0 := rfl

@[simp] theorem failureNumber_some (e : ErrCode) : failureNumber (some e) = (errNumber e).toNat := rfl

theorem failureNumber_eq_zero_iff {o : Option ErrCode} : failureNumber o = 0 ↔ o = none := by
  cases o with
  | none => simp
  | some e => simpa using (Nat.pos_iff_ne_zero.1 (Status.errNumber_range e).1)

/-- The checks by number, for a transform whose parameter check is that `P` is false (60_exceptions.md R213). -/
theorem failureNumber_check {op : Op} {s : State} {P : Prop} [Decidable P] {e : ErrCode} (ch : ChanSel)
    (h : paramError op s.param0 s.param1 = if P then some e else none) :
    failureNumber (check op ch s) =
      if ch = .reserved then 2
      else if P then (errNumber e).toNat
      else if ch = .both ∧ s.mem.buf0.length ≠ s.mem.buf1.length then 7
      else failureNumber (roomError s.cfg op s.param0 (selectedLen s.mem ch)) := by
  unfold check
  rw [h]
  by_cases hP : P
  · rw [if_pos hP, if_pos hP]
    exact apply_ite failureNumber ..
  · rw [if_neg hP, if_neg hP]
    exact (apply_ite failureNumber ..).trans (if_congr Iff.rfl rfl (apply_ite failureNumber ..))

theorem failureNumber_room_resample (c : Config) (p0 : Word) (n : Nat) :
    failureNumber (roomError c .resample p0 n) = if n * 65536 / p0.toNat > c.maxLen then 9 else 0 :=
  apply_ite failureNumber ..

theorem failureNumber_room_echo (c : Config) (p0 : Word) (n : Nat) :
    failureNumber (roomError c .echo p0 n) =
      if countOf p0 > c.dlMax then 8 else if n + countOf p0 > c.maxLen then 9 else 0 :=
  (apply_ite failureNumber ..).trans (if_congr Iff.rfl rfl (apply_ite failureNumber ..))

theorem firstFailure_of_no_row {w : Word} (h : decodeRow w = none) (s : State) : firstFailure w s = 1 :=
  if_pos ((decodeRow_eq_none_iff w).1 h)

/-- The numbers of CH that `firstFailure` asks for (30_encoding.md R92). -/
theorem chCode_toNat_eq_zero_iff (ch : ChanSel) : (chCode ch).toNat = 0 ↔ ch = .reserved := by
  cases ch <;> decide

theorem chCode_toNat_eq_two_iff (ch : ChanSel) : (chCode ch).toNat = 2 ↔ ch = .right := by
  cases ch <;> decide

theorem chCode_toNat_eq_three_iff (ch : ChanSel) : (chCode ch).toNat = 3 ↔ ch = .both := by
  cases ch <;> decide

theorem selectedLen_eq_ite (m : Memory) (ch : ChanSel) :
    selectedLen m ch = if ch = .right then m.buf1.length else m.buf0.length := by
  cases ch <;> rfl

theorem firstFailure_of_row {w : Word} {i : Instr} (h : decodeRow w = some i) (s : State) :
    firstFailure w s = failureNumber (check i.op i.ch s) := by
  obtain ⟨hrsv, hop, hch⟩ := fields_of_decodeRow h
  have toNat_eq_zero (p : Word) : p.toNat = 0 ↔ p = 0#32 := by rw [← BitVec.toNat_inj]; rfl
  simp only [firstFailure, hrsv, ← hop, ← hch, chCode_toNat_eq_zero_iff, chCode_toNat_eq_two_iff,
    chCode_toNat_eq_three_iff, toNat_eq_zero, ← selectedLen_eq_ite]
  cases i.op with
  | vol =>
    rw [failureNumber_check (e := .invalidVolume) i.ch rfl]
    simp [opCode, roomError, errNumber]
  | fadein | fadeout =>
    rw [failureNumber_check (e := .invalidTime) i.ch rfl]
    simp [opCode, roomError, errNumber]
  | resample =>
    rw [failureNumber_check (e := .invalidSpeed) i.ch rfl]
    simp [opCode, failureNumber_room_resample, errNumber]
  | echo =>
    rw [failureNumber_check (e := .invalidEcho) i.ch rfl]
    simp [opCode, failureNumber_room_echo, errNumber]

section writeCmd

variable {s : State} {w : Word}

/-- With the reset input low a CMD write is acknowledged and does what R211 says. -/
theorem access_wrAt_cmd (hr : s.rst = false) (w : Word) :
    access (wrAt 0x00 w) s = writeCmd w (s.setResp (some .ack)) :=
  access_writeReg hr .cmd w

theorem writeCmd_of_no_row (h : decodeRow w = none) : writeCmd w s = .next (rejectWord s) := by
  rw [writeCmd_eq, h]

theorem writeCmd_of_row {i : Instr} (h : decodeRow w = some i) : writeCmd w s = exec i s := by
  rw [writeCmd_eq, h, exec_eq_issue]

theorem exec_busy (hb : s.status.busy = true) (i : Instr) : exec i s = .next s.drop := by
  rw [exec_eq_issue, issue_busy hb]
  rfl

theorem writeCmd_busy (hb : s.status.busy = true) (w : Word) : writeCmd w s = .next s.drop := by
  cases hrow : decodeRow w with
  | none => rw [writeCmd_of_no_row hrow, rejectWord, if_pos hb]
  | some i => rw [writeCmd_of_row hrow, exec_busy hb]

/-- While idle, the first failing check is the one reported (60_exceptions.md R210, R213). -/
theorem writeCmd_rejected (hb : s.status.busy = false) (hf : firstFailure w s ≠ 0) :
    writeCmd w s = .next (s.setStatus (rejectedStatus s (BitVec.ofNat 4 (firstFailure w s)))) := by
  cases hrow : decodeRow w with
  | none =>
    rw [writeCmd_of_no_row hrow, rejectWord_idle hb, firstFailure_of_no_row hrow]
    rfl
  | some i =>
    rw [firstFailure_of_row hrow] at hf ⊢
    cases hcheck : check i.op i.ch s with
    | none => simp [hcheck] at hf
    | some e =>
      rw [writeCmd_of_row hrow, exec_eq_issue, issue_rejected hb hcheck, Status.issued_raise_eq hb,
        failureNumber_some, BitVec.ofNat_toNat, BitVec.setWidth_eq]

/-- While idle, a word that no check fails is a well-formed command's and is accepted
(60_exceptions.md R215). -/
theorem writeCmd_accepted (hb : s.status.busy = false) (hf : firstFailure w s = 0) :
    ∃ i, decode w = .ok i ∧ writeCmd w s = .next (s.acceptedWith i) := by
  cases hrow : decodeRow w with
  | none => simp [firstFailure_of_no_row hrow] at hf
  | some i =>
    rw [firstFailure_of_row hrow, failureNumber_eq_zero_iff] at hf
    obtain ⟨hch, -⟩ := (check_none_iff i.op i.ch s).1 hf
    have hwf : i.wellFormed = true := by simpa [Instr.wellFormed] using hch
    refine ⟨i, ?_, ?_⟩
    · rw [decode_of_decodeRow_some hrow, if_pos hwf]
    · rw [writeCmd_of_row hrow, exec_of_check hb hf]

end writeCmd

/-- Settles O23: the three outcomes of `writeCmd` in the state with the response given. -/
theorem cmdWriteIsDroppedRejectedOrAccepted : Obligations.CmdWriteIsDroppedRejectedOrAccepted := by
  intro s w hr
  rw [access_wrAt_cmd hr]
  refine ⟨fun hb => writeCmd_busy (s := s.setResp (some .ack)) hb w,
    fun hb hf => writeCmd_rejected hb hf, fun hb hf => ?_⟩
  obtain ⟨i, hi, hw⟩ := writeCmd_accepted (s := s.setResp (some .ack)) hb hf
  refine ⟨i, hi, ?_⟩
  rw [hw, ← selectedLen_eq_commonLen]
  rfl

/-- Settles O26. -/
theorem commandWhileBusyIsDropped : Obligations.CommandWhileBusyIsDropped :=
  fun _ i hb => exec_busy hb i

/-- Settles O27, for each of the three things `issue` can do. -/
theorem cmdWriteFrame : Obligations.CmdWriteFrame := by
  intro s t i h
  rw [exec_eq_issue] at h
  cases h
  rcases issue_cases i.op i.ch s with ⟨-, e⟩ | ⟨-, x, -, e⟩ | ⟨hb, -, e⟩ <;> rw [e]
  · exact ⟨rfl, fun _ => rfl, fun _ => rfl, fun _ => rfl, fun _ => rfl⟩
  · exact ⟨rfl, id, fun _ => rfl, fun _ => rfl, fun _ => rfl⟩
  · exact ⟨rfl, id, fun hbusy => by simp [hb] at hbusy, fun herr => by simp at herr, fun _ => rfl⟩

/-- A step at the host's turn is its next access, with the turn and the access used up. -/
theorem step_of_host_turn {s : State} (hn : nextTurn s = .host) {a : Access} {rest : List HostOp}
    (hhost : s.host = .access a :: rest) :
    step s = access a ((s.setSched s.sched.tail).setHost rest) := by
  rw [step_eq, hn, takeTurn, hostTurn, State.setSched_host, hhost]

/-- A step at a CMD write of a row's word runs the row's command, a reserved CH included. -/
theorem step_of_cmd_write {s : State} (hn : nextTurn s = .host) (hr : s.rst = false) {w : Word} {i : Instr}
    {rest : List HostOp} (hhost : s.host = .access (wrAt 0x00 w) :: rest) (hrow : decodeRow w = some i) :
    step s = exec i { s with sched := s.sched.tail, host := rest, resp := some .ack } := by
  rw [step_of_host_turn hn hhost, access_wrAt_cmd (s := (s.setSched s.sched.tail).setHost rest) hr,
    writeCmd_of_row hrow]
  rfl

/-- `decodeTableWord` reads the word that `withFetchWord` places: its byte lanes put together again
(20_memory.md R67). -/
theorem decodeTableWord_eq_decodeRow (nbits w : Nat) :
    decodeTableWord nbits w = decodeRow (tableWord nbits w) := by
  simp only [decodeTableWord, wordOfLanes_byteLanes]

/-- Settles O45: both the host's own word and the one `withFetchWord` places are at the head of its queue. -/
theorem stepRunsTheDecodedCommand : Obligations.StepRunsTheDecodedCommand := by
  refine ⟨fun s w i rest hn hr hhost hi => ?_, fun s w i hi => ?_⟩
  · obtain ⟨-, he⟩ := (decode_eq_ok_iff w i).1 hi
    exact step_of_cmd_write hn hr hhost ((decodeRow_eq_some_iff w i).2 he)
  · rw [decodeTableWord_eq_decodeRow] at hi
    exact step_of_cmd_write (s := s.withFetchWord 32 w) rfl rfl rfl hi

end Sys2Proof.Machine
end

section
/-! SUPPORT. No turn fails from a state of the invariant; the frame of a commit; and a commit and a host
write in both orders. -/

namespace Sys2Proof.Machine

open Sys2Proof.Claims

/-- The host's turn answers a next state in every state: an access of the port cannot fail. -/
theorem hostTurn_answers (s : State) : ∃ t, hostTurn s = .next t := by
  rcases hostTurn_cases s with e | ⟨a, rest, -, e⟩ | ⟨rest, -, -, e⟩ | ⟨rest, -, -, e⟩
  · exact ⟨_, e⟩
  · rcases access_cases a (s.setHost rest) with ⟨r, e'⟩ | ⟨-, x, w, t, -, -, e', -⟩
    · exact ⟨_, e.trans e'⟩
    · exact ⟨_, e.trans e'⟩
  · exact ⟨_, e⟩
  · exact ⟨_, e⟩

/-- The engine's turn answers a next state: it is idle, or its command has no hazard (60_exceptions.md R216). -/
theorem State.Inv.engineTurn_answers {s : State} (h : s.Inv) : ∃ t, engineTurn s = .next t := by
  cases hp : s.pend with
  | none => exact ⟨s, by simp [engineTurn, hp]⟩
  | some p => exact ⟨_, h.engineTurn_of_pend hp⟩

/-- Settles O49, agent by agent; the reset input's turn is a function. -/
theorem noStepFails : Obligations.NoStepFails := by
  intro s h
  rw [State.Steps, step_eq]
  cases nextTurn s with
  | host => exact hostTurn_answers _
  | engine => exact (h.setSched s.sched.tail).engineTurn_answers
  | pin level => exact ⟨_, rfl⟩

/-- What no commit changes (60_exceptions.md R217). -/
theorem applyCommit_frame (p : Pending) (s : State) : applyCommit p s = { s with
    status := s.status.committed
    pend := none
    mem := (applyCommit p s).mem
    count := (applyCommit p s).count
    delta := (applyCommit p s).delta
    dl := (applyCommit p s).dl
    wp := (applyCommit p s).wp
    acc := (applyCommit p s).acc } := by
  obtain ⟨op, ch, p0, p1, n⟩ := p
  cases op <;> rfl

@[simp] theorem applyCommit_host (p : Pending) (s : State) : (applyCommit p s).host = s.host := by
  rw [applyCommit_frame]

@[simp] theorem applyCommit_sched (p : Pending) (s : State) : (applyCommit p s).sched = s.sched := by
  rw [applyCommit_frame]

@[simp] theorem applyCommit_param0 (p : Pending) (s : State) : (applyCommit p s).param0 = s.param0 := by
  rw [applyCommit_frame]

/-- A latched command commits from BUSY alone, so DONE alone stands after it, with OVR as it was. -/
theorem State.Inv.committed_status {s : State} (h : s.Inv) {p : Pending} (hp : s.pend = some p) :
    s.status.committed = doneStatus s := by
  obtain ⟨herr, hcode⟩ := h.no_error_of_pend hp
  simp [Status.committed, doneStatus, herr, hcode]

/-- The engine's turn of a step commits the pending command (60_exceptions.md R216, R217). -/
theorem State.Inv.step_of_engine_turn {s : State} (h : s.Inv) {p : Pending} (hp : s.pend = some p)
    (hn : nextTurn s = .engine) : step s = .next (applyCommit p (s.setSched s.sched.tail)) := by
  rw [step_eq, hn]
  exact (h.setSched s.sched.tail).engineTurn_of_pend hp

/-- Settles O50: the step is the commit, whose guard gives every selected buffer the latched length. -/
theorem aPendingCommandAlwaysCommits : Obligations.APendingCommandAlwaysCommits := by
  intro s p h hp hn
  obtain ⟨-, hlen, -, -⟩ := of_commitHazard_none (h.no_hazard hp)
  refine ⟨_, h.step_of_engine_turn hp hn, applyCommit_pend .., ?_, fun c hc => ?_, fun c hc => ?_, ?_⟩
  · rw [applyCommit_status]
    exact h.committed_status hp
  · rw [applyCommit_mem, Memory.mapSelected_buf, hc]
    rfl
  · rw [applyCommit_buf _ _ hc, laneOf_length, State.setSched_mem, hlen c hc]
  · rw [applyCommit_status]
    exact applyCommit_frame p _

/-- The state at an accepted write of the host's turn: the turn and the access used up, the write
acknowledged. -/
def State.acknowledged (s : State) (rest : List HostOp) : State :=
  ((s.setSched s.sched.tail).setHost rest).setResp (some .ack)

section param0

variable {s : State} (hn : nextTurn s = .host) (hr : s.rst = false) {v : Word} {rest : List HostOp}
  (hhost : s.host = .access (wrAt 0x0C v) :: rest)
include hn hr hhost

/-- A PARAM0 write while idle is stored (10_state.md R28). -/
theorem step_param0_idle (hb : s.status.busy = false) :
    step s = .next ((s.acknowledged rest).setParam0 v) := by
  obtain ⟨hidle, -⟩ := paramWritesStoreOrAreDropped ((s.setSched s.sched.tail).setHost rest) v hr
  rw [step_of_host_turn hn hhost]
  exact (hidle hb).1

/-- A PARAM0 write while busy is dropped (10_state.md R28, R43). -/
theorem step_param0_busy (hb : s.status.busy = true) :
    step s = .next ((s.acknowledged rest).setStatus s.status.dropped) := by
  obtain ⟨-, hbusy, -⟩ := paramWritesStoreOrAreDropped ((s.setSched s.sched.tail).setHost rest) v hr
  rw [step_of_host_turn hn hhost]
  exact (hbusy hb).1

end param0

theorem core_run_two {s t u : State} (h : step s = .next t) (h' : step t = .next u) :
    core.run 2 s = .next u := by
  rw [core_run_succ _ _ _ h, core_run_succ _ _ _ h']
  rfl

/-- Settles O56: after the commit the machine is idle and stores the value; before it the write is dropped,
which keeps the invariant, so the latched command still commits, and a commit reads none of what the drop
changed. -/
theorem bothOrdersOfCommitAndWrite : Obligations.BothOrdersOfCommitAndWrite := by
  intro s p v h hp hr hhost
  have hcommit := (h.setSched [.engine, .host]).step_of_engine_turn hp rfl
  have hstore := step_param0_idle (s := applyCommit p (s.setSched [.host])) (v := v) (rest := [])
    (by simp [nextTurn]) (by simpa using hr) (by simpa using hhost) (by simp)
  have hdrop := step_param0_busy (s := s.setSched [.host, .engine]) rfl hr hhost (h.busy_of_pend hp)
  have hcommit' := (invariantKeptByEveryStep _ _ (h.setSched _) hdrop).step_of_engine_turn hp rfl
  refine ⟨_, _, core_run_two hcommit hstore, core_run_two hdrop hcommit', ?_⟩
  simp [State.acknowledged]

end Sys2Proof.Machine
end

section
/-! SUPPORT. A host wait loop: every turn of a schedule without a reset ends it or leaves the host waiting,
and once the schedule is used up the engine commits and the poll ends. -/

namespace Sys2Proof.Machine

/-- The host stands at a `wait` and no reset comes: what every turn of the loop but its last keeps. -/
structure State.Waiting (s : State) (rest : List HostOp) : Prop where
  inv : s.Inv
  low : s.rst = false
  sched : s.NoResetScheduled
  host : s.host = .wait :: rest

/-- The loop is over: the host goes on after it, having read STATUS with bit 0 clear (30_encoding.md R98). -/
structure State.WaitOver (t : State) (rest : List HostOp) : Prop where
  host : t.host = rest
  idle : t.status.busy = false
  resp : ∃ w, t.resp = some (.data w) ∧ w.getLsbD 0 = false

/-- Within `n` steps the loop is over. -/
def State.WaitEndsWithin (s : State) (rest : List HostOp) (n : Nat) : Prop :=
  ∃ k t, k ≤ n ∧ core.run k s = .next t ∧ t.WaitOver rest

theorem State.WaitOver.of_step {s t : State} {rest : List HostOp} (hstep : step s = .next t)
    (h : t.WaitOver rest) {n : Nat} (hn : 1 ≤ n) : s.WaitEndsWithin rest n :=
  ⟨1, t, hn, core_run_succ 0 _ _ hstep, h⟩

theorem State.WaitEndsWithin.of_step {s t : State} {rest : List HostOp} {n : Nat}
    (hstep : step s = .next t) (h : t.WaitEndsWithin rest n) : s.WaitEndsWithin rest (n + 1) := by
  obtain ⟨k, u, hk, hrun, hu⟩ := h
  exact ⟨k + 1, u, Nat.succ_le_succ hk, (core_run_succ k _ _ hstep).trans hrun, hu⟩

/-- With the reset input low a poll reads STATUS, and the host stays at its `wait` exactly while BUSY is
high (30_encoding.md R98). -/
theorem hostTurn_of_wait {s : State} {rest : List HostOp} (hr : s.rst = false)
    (hhost : s.host = .wait :: rest) : hostTurn s = .next
      ((if s.status.busy then s else s.setHost rest).setResp (some (.data s.status.word))) := by
  have hpoll : pollEnds (.data s.status.word) = !s.status.busy := by rw [pollEnds, Status.word_bit0]
  cases hb : s.status.busy with
  | false => simp [hostTurn, hhost, poll_reads_status hr, hpoll, hb]
  | true => simp [hostTurn, hhost, poll_reads_status hr, hpoll, hb]

namespace State.Waiting

variable {s : State} {rest : List HostOp} (h : s.Waiting rest)
include h

/-- Using up a scheduled turn leaves the host waiting. -/
theorem useTurn : (s.setSched s.sched.tail).Waiting rest where
  inv := h.inv.setSched _
  low := h.low
  sched := fun t ht => h.sched t (List.mem_of_mem_tail ht)
  host := h.host

/-- While BUSY is low a poll ends the loop. -/
theorem hostTurn_idle (hb : s.status.busy = false) :
    ∃ t, hostTurn s = .next t ∧ t.WaitOver rest := by
  refine ⟨(s.setHost rest).setResp (some (.data s.status.word)), ?_, rfl, hb, s.status.word, rfl, ?_⟩
  · simp [hostTurn_of_wait h.low h.host, hb]
  · rw [Status.word_bit0, hb]

/-- While BUSY is high a poll changes the response alone. -/
theorem hostTurn_busy (hb : s.status.busy = true) :
    ∃ t, hostTurn s = .next t ∧ t.Waiting rest ∧ t.sched = s.sched := by
  refine ⟨s.setResp (some (.data s.status.word)), ?_, ⟨h.inv.setResp _, h.low, h.sched, h.host⟩, rfl⟩
  simp [hostTurn_of_wait h.low h.host, hb]

/-- A commit leaves the host waiting. -/
theorem applyCommit {p : Pending} (hp : s.pend = some p) : (Machine.applyCommit p s).Waiting rest where
  inv := applyCommit_keeps_inv h.inv hp
  low := by rw [applyCommit_rst, h.low]
  sched := by rw [NoResetScheduled, applyCommit_sched]; exact h.sched
  host := by rw [applyCommit_host, h.host]

/-- The engine's turn leaves the host waiting: it commits or does nothing. -/
theorem engineTurn : ∃ t, Machine.engineTurn s = .next t ∧ t.Waiting rest ∧ t.sched = s.sched := by
  cases hp : s.pend with
  | none => exact ⟨s, by simp [Machine.engineTurn, hp], h, rfl⟩
  | some p => exact ⟨_, h.inv.engineTurn_of_pend hp, h.applyCommit hp, applyCommit_sched p s⟩

/-- Every turn but the rise of the reset input ends the loop or leaves the host waiting. -/
theorem takeTurn {turn : Turn} (hturn : turn ≠ .pin true) :
    ∃ t, Machine.takeTurn turn s = .next t ∧ (t.WaitOver rest ∨ t.Waiting rest ∧ t.sched = s.sched) := by
  cases turn with
  | host =>
    cases hb : s.status.busy with
    | false =>
      obtain ⟨t, ht, hover⟩ := h.hostTurn_idle hb
      exact ⟨t, ht, .inl hover⟩
    | true =>
      obtain ⟨t, ht, hwait⟩ := h.hostTurn_busy hb
      exact ⟨t, ht, .inr hwait⟩
  | engine =>
    obtain ⟨t, ht, hwait⟩ := h.engineTurn
    exact ⟨t, ht, .inr hwait⟩
  | pin level =>
    cases level with
    | false => exact ⟨s, congrArg _ (pinTurn_low h.low), .inr ⟨h, rfl⟩⟩
    | true => exact absurd rfl hturn

/-- With the schedule used up and nothing pending, the host's poll is next and ends the loop. -/
theorem ends_of_nothing_pending (hsched : s.sched = []) (hp : s.pend = none) {n : Nat} (hn : 1 ≤ n) :
    s.WaitEndsWithin rest n := by
  have hb : s.status.busy = false := by simpa [hp] using h.inv.latch.1.symm
  have hnext : nextTurn s = .host := by simp [nextTurn, hsched, hp]
  obtain ⟨t, ht, hover⟩ := h.useTurn.hostTurn_idle hb
  exact hover.of_step (by rw [step_eq, hnext]; exact ht) hn

/-- With the schedule used up a pending command commits first (log 2), and then the poll ends the loop. -/
theorem ends_of_empty_schedule (hsched : s.sched = []) : s.WaitEndsWithin rest 2 := by
  cases hp : s.pend with
  | none => exact h.ends_of_nothing_pending hsched hp one_le_two
  | some p =>
    have hnext : nextTurn s = .engine := by simp [nextTurn, hsched, hp, h.low]
    exact .of_step (h.inv.step_of_engine_turn hp hnext)
      ((h.useTurn.applyCommit hp).ends_of_nothing_pending (by simp [hsched]) (by simp) le_rfl)

end State.Waiting

/-- A wait loop ends within the scheduled turns and two more, by induction on the schedule. -/
theorem State.Waiting.ends {rest : List HostOp} (turns : List Turn) :
    ∀ s : State, s.Waiting rest → s.sched = turns → s.WaitEndsWithin rest (turns.length + 2) := by
  induction turns with
  | nil => exact fun s h hsched => h.ends_of_empty_schedule hsched
  | cons turn turns ih =>
    intro s h hsched
    have hnext : nextTurn s = turn := by simp [nextTurn, hsched]
    have hturn : turn ≠ .pin true := h.sched turn (by simp [hsched])
    obtain ⟨t, ht, hover | ⟨hwait, htail⟩⟩ := h.useTurn.takeTurn hturn
    · exact hover.of_step (by rw [step_eq, hnext]; exact ht) (by simp)
    · exact .of_step (by rw [step_eq, hnext]; exact ht) (ih t hwait (by simpa [hsched] using htail))

/-- Settles O57: the state of the statement is one where the host waits, and its loop ends. -/
theorem everyWaitLoopEnds : Obligations.EveryWaitLoopEnds := by
  intro s rest hinv hlow hsched hhost
  obtain ⟨k, t, hk, hrun, hover⟩ := State.Waiting.ends s.sched s ⟨hinv, hlow, hsched, hhost⟩ rfl
  exact ⟨k, t, hk, hrun, hover.host, hover.idle, hover.resp⟩

end Sys2Proof.Machine
end

section
/-! SUPPORT. A buffer shrunk and grown again by two LEN writes. -/

namespace Sys2Proof.Machine

open Sys2Proof.Claims

/-- A buffer cut to v samples and extended again is its first v samples and zeros (10_state.md R31). -/
theorem resize_resize {b : List Sample} {v w : Nat} (hv : v ≤ b.length) (hw : v ≤ w) :
    resize (resize b v) w = b.take v ++ List.replicate (w - v) 0 := by
  have hlen : (b.take v).length = v := List.length_take_of_le hv
  rw [resize_shrink hv]
  rcases hw.eq_or_lt with rfl | hlt
  · rw [resize_shrink hlen.ge, List.take_take, Nat.min_self, Nat.sub_self, List.replicate_zero,
      List.append_nil]
  · rw [resize_grow (hlen.trans_lt hlt), hlen]

/-- A LEN write within MAXLEN takes an idle state to an idle one with the buffer resized (10_state.md R31). -/
theorem access_wrAt_len_of_idle {s : State} (h : Idle s) (c : Chan) {v : Word} (hv : v.toNat ≤ s.cfg.maxLen) :
    ∃ t, access (wrAt (lenOffset c) v) s = .next t ∧ Idle t ∧ t.cfg = s.cfg ∧
      t.mem.buf c = resize (s.mem.buf c) v.toNat := by
  obtain ⟨hb, hr⟩ := h
  refine ⟨_, access_wrAt_len_resizes hr hb c hv, ⟨hb, hr⟩, rfl, ?_⟩
  rw [State.setMem_mem, Memory.set_buf_same]

/-- Settles O59: both LEN writes resize, the second the buffer that the first left. -/
theorem shrinkThenGrowBringsZeros : Obligations.ShrinkThenGrowBringsZeros := by
  intro s c v w hidle hv hvw hw
  obtain ⟨t, ht, hidle', hcfg, hbuf⟩ := access_wrAt_len_of_idle hidle c (hvw.trans hw)
  obtain ⟨u, hu, -, -, hbuf'⟩ := access_wrAt_len_of_idle hidle' c (hcfg ▸ hw)
  exact ⟨t, u, ht, hu, by rw [hbuf', hbuf, resize_resize hv hvw]⟩

end Sys2Proof.Machine
end

section
/-! SUPPORT. The reset input from any state: its rise, its high level and its fall. -/

namespace Sys2Proof.Machine

/-- The rise of the reset input, and its fall, reset the SAE (70_reset_and_hazards.md R240). -/
theorem pinTurn_resets {level : Bool} {s : State} (h : level = true ∨ s.rst = true) :
    pinTurn level s = s.toReset level :=
  if_pos (by simpa using h)

/-- A step whose scheduled turn is the reset input's. -/
theorem step_of_pin {s : State} {level : Bool} {rest : List Turn} (hsched : s.sched = .pin level :: rest) :
    step s = .next (pinTurn level (s.setSched rest)) := by
  have hnext : nextTurn s = .pin level := by simp [nextTurn, hsched]
  rw [step_eq, hnext, hsched]
  rfl

/-- While the reset input is high the engine does not move (70_reset_and_hazards.md R241). -/
theorem engineTurn_in_reset {s : State} (h : s.rst = true) : engineTurn s = .next s := by
  cases hp : s.pend with
  | none => simp [engineTurn, hp]
  | some p => simp [engineTurn, hp, h]

/-- After reset STATUS reads 0 (70_reset_and_hazards.md R240). -/
theorem State.resetWith_status_word (c : Config) : (State.resetWith c).status.word = 0 := by
  rw [State.resetWith_status]
  decide

/-- Settles O46: rise and fall are turns of the reset input that reset; while it is high the port and the
engine answer as in reset; the table is the value of `resetWith` field by field. -/
theorem resetFromAnyState : Obligations.ResetFromAnyState := by
  intro s
  refine ⟨fun rest hsched => ?_, fun rest hr hsched => ?_, fun a hr => access_in_reset hr a,
    engineTurn_in_reset, fun c => ?_⟩
  · rw [step_of_pin hsched, pinTurn_resets (.inl rfl)]
    rfl
  · rw [step_of_pin hsched, pinTurn_resets (s := s.setSched rest) (.inr hr)]
    rfl
  · exact ⟨State.resetWith_status_word c, Status.ctrlWord_eq false, rfl, rfl, rfl, 
      rfl, rfl, rfl, rfl, rfl, rfl, rfl, rfl⟩

end Sys2Proof.Machine
end
